-- ==== Sys2Proof/Word.lean ====
section
/-! DEFINITION. The word types of the PA-4160: bus words, offsets, counts and the numbers that name its slots,
positions and route groups. Widths are those of R200 (word layouts) and R201 (signals). -/

namespace Sys2Proof

/-- A 32-bit call store word on its four byte lanes (R200). -/
abbrev Word32 := BitVec 32

/-- A 20-bit word address of the C-side or the S-side (R201). -/
abbrev BusAddr := BitVec 20

/-- A window offset, 000h to 7FFh (R129). -/
abbrev Offset := BitVec 11

/-- The four lane enables of a transaction: bit i is lane i (R201). -/
abbrev Lanes := BitVec 4

/-- All four lanes enabled: a full-word write. -/
abbrev fullLanes : Lanes := 0xF#4

/-- A call tick count, which wraps at 65536 (R100). -/
abbrev Tick := BitVec 16

/-- A slot number, 0 to 127 (R1). -/
abbrev SlotNo := Fin 128

/-- A position number, 0 to 3 (R74). -/
abbrev PosNo := Fin 4

/-- A route group, 0 to 31 (R141). -/
abbrev GroupNo := Fin 32

/-- An urgency class or a threshold, 0 to 7. -/
abbrev Class := BitVec 3

/-- An urgency score U, 0 to 255 (R61). -/
abbrev Score := BitVec 8

end Sys2Proof
end

