-- ==== Sys2Proof/Config.lean ====
section
/-! DEFINITION. The fixed numbers of the part. The spec leaves no value of the PA-4160 to an implementation and
calls no result undefined, so there is no free value here: see INVENTORY.md, "What the manual leaves open". -/

namespace Sys2Proof.Config

/-- Entries the Posting Queue holds at most (R164). -/
abbrev postingDepth : Nat := 16

/-- Entries a split stack holds at most (R45). -/
abbrev stackDepth : Nat := 4

/-- Words of the window (R129). -/
abbrev windowWords : Nat := 2048

/-- Bytes of the address space: 2^20 words of four lanes (R201). -/
abbrev memoryBytes : Nat := 4194304

/-- The RESTART value, compared on all 32 bits (R198). -/
abbrev restartValue : Word32 := 0x00000052#32

/-- What a byte of the call store that nothing has written reads as. DESIGN CHOICE, unsafe (log entry 1): the
manual says only that such memory holds whatever the SRAM held (R143, R196). -/
abbrev unlistedByte : BitVec 8 := 0#8

end Sys2Proof.Config
end

