-- ==== Sys2Proof/Syntax.lean ====
section
/-! DEFINITION. The commands of the PA-4160: one constructor of `Instr` for each row of spec/opcode_table.json.

A row that is a C-side transaction carries what the bus carries for it (R201): the requester, the word it is
addressed to, the lane enables and data it does not fix itself, and the LOCK flag. A row that is an event inside
the part carries the slot or position it concerns. -/

namespace Sys2Proof

/-- The sources of C-side transactions (R201, R199). -/
inductive Requester where
  | console
  | link
  | maint
  | other
  deriving DecidableEq, Repr

/-- The levels of the strap pins (R201): WBASE places the window, POSN codes the positions fitted less one,
REFSEL codes the prescaler divisor. -/
structure Straps where
  wbase  : BitVec 6
  posn   : BitVec 2
  refsel : BitVec 2
  deriving DecidableEq, Repr

/-- How a command reaches a slot's ACTION or LINE word: at the slot's own record, or through the current-call
view of a position (R157). -/
inductive CallPath where
  | slot (n : SlotNo)
  | view (p : PosNo)
  deriving DecidableEq, Repr

/-- One transaction of the C-side bus as its signals carry it (R201): `code` is the 2-bit requester code. -/
structure Txn where
  code      : BitVec 2
  addr      : BusAddr
  write     : Bool
  lanes     : Lanes
  data      : Word32
  lock      : Bool
  deriving DecidableEq, Repr

/-- The commands, one per row of spec/opcode_table.json, in the table's order. `upper` is lanes 1 to 3 of a command
word as the requester writes them, above the code in lane 0 that the row fixes (R198). -/
inductive Instr where
  /-- POWER_ON_RESET (R189): the strap levels sampled, and what the SRAM holds as power comes up. -/
  | powerOnReset (pins : Straps) (sram : List Host.Cell)
  /-- RESET_N (R189): the assertion of RESET_N with the strap levels it samples. -/
  | resetN (pins : Straps)
  /-- RESTART (R139): a full-word write of the RESTART value to 009h; `pins` are the strap levels its reset samples. -/
  | restart (r : Requester) (lock : Bool) (pins : Straps)
  /-- OPENING_WRITE (R190). -/
  | openingWrite
  /-- FILL (R191): the fill's next DISPOSITION word. -/
  | fill
  /-- SWEEP_SETTING_READ (R192): the sweep's next setting word. -/
  | sweepSettingRead
  /-- ADOPTION (R193): the sweep's next slot. -/
  | adoption
  /-- CLOSING_WRITES (R195). -/
  | closingWrites
  /-- ENTRY_TO_RUN (R195). -/
  | entryToRun
  /-- OFFER (R17), event code 1: the group is bits 4:0 of `upper` (bits 12:8 of the word, R198). -/
  | offer (r : Requester) (at_ : CallPath) (upper : BitVec 24) (lock : Bool)
  /-- ABANDON (R19), event code 2. -/
  | abandon (r : Requester) (at_ : CallPath) (upper : BitVec 24) (lock : Bool)
  /-- EXT_ANSWER (R24), event code 3. -/
  | extAnswer (r : Requester) (at_ : CallPath) (upper : BitVec 24) (lock : Bool)
  /-- EXT_BUSY (R25), event code 4. -/
  | extBusy (r : Requester) (at_ : CallPath) (upper : BitVec 24) (lock : Bool)
  /-- EXT_FREE (R26), event code 5. -/
  | extFree (r : Requester) (at_ : CallPath) (upper : BitVec 24) (lock : Bool)
  /-- EXT_FAIL (R27), event code 6. -/
  | extFail (r : Requester) (at_ : CallPath) (upper : BitVec 24) (lock : Bool)
  /-- UNKNOWN_EVENT_CODE (R28): a full-word LINE write whose lane 0 is none of 1 to 6. -/
  | unknownEventCode (r : Requester) (at_ : CallPath) (data : Word32) (lock : Bool)
  /-- ANSWER (R35), action code 1: the position named is bits 7:0 of `upper` (lane 1 of the word, R198). -/
  | answer (r : Requester) (at_ : CallPath) (upper : BitVec 24) (lock : Bool)
  /-- HOLD (R37), action code 2. -/
  | hold (r : Requester) (at_ : CallPath) (upper : BitVec 24) (lock : Bool)
  /-- SWAP (R39), action code 3. -/
  | swap (r : Requester) (at_ : CallPath) (upper : BitVec 24) (lock : Bool)
  /-- EXTEND (R40), action code 4. -/
  | extend (r : Requester) (at_ : CallPath) (upper : BitVec 24) (lock : Bool)
  /-- RELEASE (R41), action code 5. -/
  | release (r : Requester) (at_ : CallPath) (upper : BitVec 24) (lock : Bool)
  /-- UNKNOWN_ACTION_CODE (R30): a full-word ACTION write whose lane 0 is none of 1 to 5. -/
  | unknownActionCode (r : Requester) (at_ : CallPath) (data : Word32) (lock : Bool)
  /-- VIEW_ACTION_NO_CALL (R161): a full-word write to view word 8 of a position with no current slot. -/
  | viewActionNoCall (r : Requester) (p : PosNo) (data : Word32) (lock : Bool)
  /-- OPEN (R78), control command 1. -/
  | openPosition (r : Requester) (p : PosNo) (upper : BitVec 24) (lock : Bool)
  /-- CLOSE (R79), control command 2. -/
  | closePosition (r : Requester) (p : PosNo) (upper : BitVec 24) (lock : Bool)
  /-- UNKNOWN_CONTROL_COMMAND (R77): a full-word CONTROL write whose lane 0 is neither 1 nor 2. -/
  | unknownControlCommand (r : Requester) (p : PosNo) (data : Word32) (lock : Bool)
  /-- HEARTBEAT (R138): a full-word write to 001h; its value is not interpreted. -/
  | heartbeat (r : Requester) (data : Word32) (lock : Bool)
  /-- NIGHT_REQUEST (R118): a MODE write with lane 0 enabled and mode value NIGHT; `upperLanes` are lanes 1 to 3 and
  `rest` bits 31:2 of the data. -/
  | nightRequest (r : Requester) (upperLanes : BitVec 3) (rest : BitVec 30) (lock : Bool)
  /-- DAY_REQUEST (R120): the same with mode value DAY. -/
  | dayRequest (r : Requester) (upperLanes : BitVec 3) (rest : BitVec 30) (lock : Bool)
  /-- ACKNOWLEDGEMENT (R184): a write to 011h with any lanes. -/
  | acknowledgement (r : Requester) (lanes : Lanes) (data : Word32) (lock : Bool)
  /-- SETTING_WRITE (R140): a write to the setting word at window offset `off`. -/
  | settingWrite (r : Requester) (off : Offset) (lanes : Lanes) (data : Word32) (lock : Bool)
  /-- COUNTER_PRESET (R72): a write to the counter word at window offset `off`. -/
  | counterPreset (r : Requester) (off : Offset) (lanes : Lanes) (data : Word32) (lock : Bool)
  /-- STRAY_WRITE (R144): a write at window offset `off` without the right, or to a part-owned word. -/
  | strayWrite (r : Requester) (off : Offset) (lanes : Lanes) (data : Word32) (lock : Bool)
  /-- PARTIAL_COMMAND (R136): a command write at window offset `off` with fewer than four lanes. -/
  | partialCommand (r : Requester) (off : Offset) (lanes : Lanes) (data : Word32) (lock : Bool)
  /-- PLAIN_WRITE (R146, R129): a write at bus address `addr`, inside the window or outside it. -/
  | plainWrite (r : Requester) (addr : BusAddr) (lanes : Lanes) (data : Word32) (lock : Bool)
  /-- LOCKED_READ (R168): a read with the LOCK flag at bus address `addr`. -/
  | lockedRead (r : Requester) (addr : BusAddr) (lanes : Lanes)
  /-- CALL_TICK (R101): the wrap of the prescaler. -/
  | callTick
  /-- SECOND_TICK (R59): the second tick at the Answer Queue. -/
  | secondTick
  /-- SLOT_SECOND_TICK (R10): the second tick at the Slot Controller. -/
  | slotSecondTick
  /-- PRESENTATION_EXPIRY (R90) of slot `n`. -/
  | presentationExpiry (n : SlotNo)
  /-- BREAK_IN_OFFER_EXPIRY (R91) of slot `n`. -/
  | breakInOfferExpiry (n : SlotNo)
  /-- HOLD_RECALL_EXPIRY (R9) of slot `n`. -/
  | holdRecallExpiry (n : SlotNo)
  /-- TRANSFER_RECALL_EXPIRY (R9) of slot `n`. -/
  | transferRecallExpiry (n : SlotNo)
  /-- CAMP_RECALL_EXPIRY (R9) of slot `n`. -/
  | campRecallExpiry (n : SlotNo)
  /-- WRAP_UP_EXPIRY (R94) of position `p`. -/
  | wrapUpExpiry (p : PosNo)
  /-- SUPERVISION_EXPIRY (R123). -/
  | supervisionExpiry
  /-- POST (R165): a free S-side turn for the Posting Queue. -/
  | post
  /-- OWED_ISSUE (R167): an S-side turn for the oldest owed issue. -/
  | owedIssue
  /-- READ_WITHOUT_LOCK (R168): a read without the LOCK flag at bus address `addr`. -/
  | readWithoutLock (r : Requester) (addr : BusAddr) (lanes : Lanes)
  deriving DecidableEq, Repr

end Sys2Proof
end

