-- ==== Sys2Proof/Machine/State.lean ====
section
/-! DEFINITION. The state of the PA-4160: every register, list, counter, mark and pin the manual gives its eleven
blocks, the call store behind it, the C-side bus in front of it, and the queue of commands that wait. Plain data. -/

namespace Sys2Proof.Machine

/-- The nine dispositions (R5). -/
inductive Disp where
  | free
  | queued
  | presented
  | talking
  | split
  | held
  | extended
  | camped
  | recall
  deriving DecidableEq, Repr

/-- What a PRESENTED slot goes back to (R4). -/
inductive ReturnKind where
  | queued
  | recall
  deriving DecidableEq, Repr

/-- One record of the Slot Table (R1). A field that may be none is an Option. -/
structure Slot where
  disp       : Disp
  group      : GroupNo
  position   : Option PosNo
  home       : Option PosNo
  recalls    : BitVec 3
  final      : Bool
  returnKind : Option ReturnKind
  breakIn    : Bool
  elapsed    : BitVec 12
  deadline   : Option Tick
  savedClass : Option Class
  deriving DecidableEq, Repr

/-- The record of a FREE slot, which is also its reset value (R2, R14). -/
def Slot.empty : Slot :=
  { disp := .free, group := 0, position := none, home := none, recalls := 0, final := false,
    returnKind := none, breakIn := false, elapsed := 0, deadline := none, savedClass := none }

/-- The five position states (R75). -/
inductive PosState where
  | closed
  | ready
  | presenting
  | engaged
  | wrapup
  deriving DecidableEq, Repr

/-- One entry of a split stack: a slot and its saved threshold (R45). -/
structure StackEntry where
  slot      : SlotNo
  threshold : Class
  deriving DecidableEq, Repr

/-- One position record (R74). The stack is listed top first. -/
structure Position where
  state        : PosState
  talking      : Option SlotNo
  presented    : Option SlotNo
  stack        : List StackEntry
  threshold    : Option Class
  misses       : BitVec 3
  closePending : Bool
  wrapDeadline : Option Tick
  deriving DecidableEq, Repr

/-- The reset value of a position record (R74). -/
def Position.empty : Position :=
  { state := .closed, talking := none, presented := none, stack := [], threshold := none, misses := 0,
    closePending := false, wrapDeadline := none }

/-- One entry of the answer list: the slot and its kept urgency score (R53, R60). Its waited count W is the slot
record's elapsed count (R10). -/
structure Listed where
  slot  : SlotNo
  score : Score
  deriving DecidableEq, Repr

/-- The four traffic counters of one route group (R70). -/
structure Counters where
  offered   : BitVec 16
  answered  : BitVec 16
  abandoned : BitVec 16
  recalled  : BitVec 16
  deriving DecidableEq, Repr

/-- The shadow of the two setting words of one route group (R141). -/
structure GroupSettings where
  cls      : Class
  grain    : BitVec 8
  step     : BitVec 4
  limit    : BitVec 3
  hold     : BitVec 8
  transfer : BitVec 8
  camp     : BitVec 8
  deriving DecidableEq, Repr

/-- A mode that can be requested (R116). -/
inductive Service where
  | day
  | night
  deriving DecidableEq, Repr

/-- The actual mode (R116). -/
inductive Mode where
  | day
  | night
  | lapsed
  deriving DecidableEq, Repr

/-- The setting shadows of the Traffic Unit (R140, R141). -/
structure Settings where
  mode        : Service
  supervision : BitVec 8
  present     : BitVec 8
  missLimit   : BitVec 3
  wrapGuard   : BitVec 8
  nightBell   : Class
  bellOn      : Bool
  attnEnable  : BitVec 8
  groups      : Vector GroupSettings 32
  deriving DecidableEq, Repr

/-- The default of a route group's shadow (R191). -/
def GroupSettings.default : GroupSettings :=
  { cls := 0, grain := 0, step := 1, limit := 1, hold := 0, transfer := 0, camp := 0 }

/-- The defaults every reset gives the shadows (R143, R191). -/
def Settings.default : Settings :=
  { mode := .day, supervision := 0, present := 15, missLimit := 2, wrapGuard := 3, nightBell := 5,
    bellOn := true, attnEnable := 0, groups := Vector.replicate 32 GroupSettings.default }

/-- The kind of the last reset (R116). -/
inductive ResetCause where
  | power
  | pin
  | restart
  deriving DecidableEq, Repr

/-- The three states of the Start-Up Sequencer (chapter 12). -/
inductive Seq where
  | fill
  | sweep
  | run
  deriving DecidableEq, Repr

/-- How far the sequencer has come in its phase: the next access it makes (R190 to R195). -/
inductive Stage where
  | opening
  | filling (n : SlotNo)
  | settings (k : Fin 72)
  | adopting (n : SlotNo)
  | closing
  | entering
  | running
  deriving DecidableEq, Repr

/-- The causes a fault record can hold (R186). -/
inductive FaultCause where
  | strayWrite
  | partialCommand
  | lineRefused
  | sweepDiscard
  deriving DecidableEq, Repr

/-- The contents of a valid fault record (R186). The requester is none for SWEEP_DISCARD. -/
structure FaultEntry where
  cause     : FaultCause
  requester : Option Requester
  offset    : Offset
  value     : Word32
  deriving DecidableEq, Repr

/-- An entry of the Posting Queue, or an owed issue: a posted word and its value (R164, R167). -/
structure Post where
  offset : Offset
  value  : Word32
  deriving DecidableEq, Repr

/-- The lock state of an open locked sequence (R168). -/
structure Lock where
  requester : Requester
  offset    : Offset
  deriving DecidableEq, Repr

/-- A C-side transaction's own S-side access (R166). `restart` is the write whose completion begins a RESTART reset
(R139); `read` carries the window offset the read is settled on, or none outside the window (R157); `nothing` is
that of a stray write that puts nothing on the S-side (R144). -/
inductive Access where
  | nothing
  | write (addr : BusAddr) (lanes : Lanes) (data : Word32)
  | restart (addr : BusAddr) (data : Word32)
  | read (addr : BusAddr) (off : Option Offset)
  deriving DecidableEq, Repr

/-- A transaction already taken whose own access waits for owed issues (R167). `behind` counts the owed issues that
stood ahead of it when its wait began and are not yet written: its own event's and those before them. -/
structure Held where
  txn    : Txn
  access : Access
  behind : Nat
  deriving DecidableEq, Repr

/-- The call store: bytes at byte addresses (four times the word address plus the lane), in canonical form. -/
abbrev Memory := List Host.Cell

/-- The whole machine. -/
structure State where
  /-- Levels now on the strap pins WBASE, POSN and REFSEL (R201). -/
  pins : Straps
  /-- Traffic Unit: strap values read at the last reset (R148). -/
  straps : Straps
  /-- Traffic Unit: lock state of a locked sequence (R168). -/
  lock : Option Lock
  /-- Traffic Unit: setting shadows (R140). -/
  settings : Settings
  /-- C-side: transactions issued and not yet taken, oldest first; the oldest is on the bus (R132). -/
  bus : List Txn
  /-- C-side: the transaction taken whose access waits for owed issues (R167). -/
  held : Option Held
  /-- C-side: the data driven for the last completed transaction if it was a read (R133, R150). -/
  reply : Option Word32
  /-- Slot Controller: the Slot Table (R1). -/
  slots : Vector Slot 128
  /-- Slot Controller: the last second tick has been delivered to it and is not yet taken (R101). -/
  secondAtSlots : Bool
  /-- Answer Queue: the answer list with the kept scores, in order of entry (R53). -/
  answerList : List Listed
  /-- Answer Queue: traffic counters (R70). -/
  counters : Vector Counters 32
  /-- Answer Queue: the last second tick has been delivered to it and is not yet taken (R101). -/
  secondAtQueue : Bool
  /-- Position Controller: position records (R74). -/
  positions : Vector Position 4
  /-- Position Controller: the ready list, first first (R82). -/
  readyList : List PosNo
  /-- Call Clock: reference prescaler (R99). -/
  prescaler : Nat
  /-- Call Clock: call tick counter (R100). -/
  callTicks : Tick
  /-- Call Clock: second-tick divider (R100). -/
  divider : Fin 10
  /-- Call Clock: cadence counter (R100). -/
  cadence : Fin 40
  /-- Mode Unit: actual mode (R116). -/
  actual : Mode
  /-- Mode Unit: requested mode (R116). -/
  requested : Service
  /-- Mode Unit: night-pending mark (R116). -/
  nightPending : Bool
  /-- Mode Unit: supervision deadline (R116). -/
  supervision : Option Tick
  /-- Mode Unit: reset cause (R116). -/
  resetCause : ResetCause
  /-- Attention Unit: latched cause set, by the bits of R199 (R181). -/
  latched : BitVec 8
  /-- Attention Unit: the fault record, none while it is not valid (R186). -/
  fault : Option FaultEntry
  /-- Attention Unit: overflow count of the fault record (R186). -/
  overflow : BitVec 4
  /-- Posting Queue: entries, oldest first (R164). -/
  posts : List Post
  /-- Posting Queue: owed issues not yet written, oldest first (R167). -/
  owed : List Post
  /-- Start-Up Sequencer: its state (R189). -/
  seq : Seq
  /-- Start-Up Sequencer: its next access (R190). -/
  stage : Stage
  /-- The call store SRAM behind the S-side. -/
  mem : Memory
  /-- The commands that wait, first in first out. -/
  pending : List Instr
  deriving DecidableEq, Repr

/-- Reasons a step stops with a fault. The manual gives the part no condition that stops it: every transaction,
tick and expiry has an effect, every 20-bit address exists, and a fault of the MANUAL (STRAY_WRITE and the others)
is a record in State. So there is no constructor, and no step can fault: safe. -/
inductive Fault where
  deriving DecidableEq, Repr

/-- Reasons a step is refused. -/
inductive Refusal where
  /-- Raised by `exec`'s arm of a command that has no meaning yet, by its mnemonic: safe. No arm raises it now. -/
  | notModelled (mnemonic : String)
  deriving DecidableEq, Repr

/-- The strap levels of the machine right after power-on. DESIGN CHOICE, unsafe (log entry 2): the straps are the
board's, and the manual gives them no value. -/
def Straps.atReset : Straps := { wbase := 0, posn := 0, refsel := 0 }

/-- The machine right after power-on (R189, and R2, R53, R70, R74, R100, R116, R143, R148, R172, R181 for the
blocks): in FILL before its opening write, cause POWER, and nothing listed in memory. -/
def State.reset : State :=
  { pins := Straps.atReset
    straps := Straps.atReset
    lock := none
    settings := Settings.default
    bus := []
    held := none
    reply := none
    slots := Vector.replicate 128 Slot.empty
    secondAtSlots := false
    answerList := []
    counters := Vector.replicate 32 { offered := 0, answered := 0, abandoned := 0, recalled := 0 }
    secondAtQueue := false
    positions := Vector.replicate 4 Position.empty
    readyList := []
    prescaler := 0
    callTicks := 0
    divider := 0
    cadence := 0
    actual := .day
    requested := .day
    nightPending := false
    supervision := none
    resetCause := .power
    latched := 0
    fault := none
    overflow := 0
    posts := []
    owed := []
    seq := .fill
    stage := .opening
    mem := []
    pending := [] }

end Sys2Proof.Machine
end

