-- ==== Sys2Proof/Machine/Memory.lean ====
section
/-! DEFINITION. The call store: reads and writes of bytes and of 32-bit words on lanes (section 6 of the general
description, R201). The list is kept in canonical form: addresses strictly rising, no byte that equals what an
unlisted address reads as. -/

namespace Sys2Proof.Machine

/-- One byte of the call store at byte address `a`. -/
def Memory.read : Memory → Nat → BitVec 8
  | [], _ => Config.unlistedByte
  | (b, v) :: rest, a => if a = b then v else Memory.read rest a

/-- One byte written at byte address `a`, keeping the canonical form. -/
def Memory.write : Memory → Nat → BitVec 8 → Memory
  | [], a, v => if v = Config.unlistedByte then [] else [(a, v)]
  | (b, w) :: rest, a, v =>
    if a < b then (if v = Config.unlistedByte then (b, w) :: rest else (a, v) :: (b, w) :: rest)
    else if a = b then (if v = Config.unlistedByte then rest else (a, v) :: rest)
    else (b, w) :: Memory.write rest a v

/-- Every listed address is above `lo`, in rising order, and no listed byte is the unlisted one. -/
def Memory.wfAbove : Option Nat → Memory → Bool
  | _, [] => true
  | lo, (a, v) :: rest =>
    (match lo with
      | none => true
      | some l => decide (l < a)) && decide (v ≠ Config.unlistedByte) && Memory.wfAbove (some a) rest

/-- The canonical form of the call store. -/
def Memory.wf (m : Memory) : Bool := Memory.wfAbove none m

/-- The call store that holds the given bytes, a later cell over an earlier one, inside the address space. -/
def Memory.ofCells (cells : List Host.Cell) : Memory :=
  cells.foldl (fun m c => if c.1 < Config.memoryBytes then Memory.write m c.1 c.2 else m) []

/-- Byte lane `i` of a word: lane 0 is bits 7 to 0 (section 6, "Byte lanes"). -/
def laneOf (w : Word32) (i : Nat) : BitVec 8 := w.extractLsb' (8 * i) 8

/-- The word whose lanes 0 to 3 are the given bytes. -/
def ofLanes (b0 b1 b2 b3 : BitVec 8) : Word32 := b3 ++ b2 ++ b1 ++ b0

/-- `w` with the bytes of the lanes that are not enabled replaced by those of `old`. -/
def mergeLanes (lanes : Lanes) (w old : Word32) : Word32 :=
  let pick (i : Nat) : BitVec 8 := if lanes.getLsbD i then laneOf w i else laneOf old i
  ofLanes (pick 0) (pick 1) (pick 2) (pick 3)

/-- `w` with lane 3 replaced: the result field of a command word (R198). -/
def setLane3 (w : Word32) (b : BitVec 8) : Word32 := b ++ w.extractLsb' 0 24

/-- `w` with lane 1 replaced: the position field of an ACTION word (R198). -/
def setLane1 (w : Word32) (b : BitVec 8) : Word32 := w.extractLsb' 16 16 ++ b ++ w.extractLsb' 0 8

/-- The word at bus address `a`. -/
def Memory.readWord (m : Memory) (a : BusAddr) : Word32 :=
  ofLanes (m.read (4 * a.toNat)) (m.read (4 * a.toNat + 1)) (m.read (4 * a.toNat + 2)) (m.read (4 * a.toNat + 3))

/-- Lane `i` of a write of `w` at bus address `a`, made if that lane is enabled. -/
def Memory.writeLane (m : Memory) (a : BusAddr) (lanes : Lanes) (w : Word32) (i : Nat) : Memory :=
  if lanes.getLsbD i then m.write (4 * a.toNat + i) (laneOf w i) else m

/-- A write of `w` at bus address `a`: the enabled lanes take its bytes and the others keep memory's (R146). -/
def Memory.writeWord (m : Memory) (a : BusAddr) (lanes : Lanes) (w : Word32) : Memory :=
  (((m.writeLane a lanes w 0).writeLane a lanes w 1).writeLane a lanes w 2).writeLane a lanes w 3

/-- The bus address of a window offset: WBASE × 2048 plus the offset (section 6, "Addresses"). -/
def windowAddr (wbase : BitVec 6) (off : Offset) : BusAddr := 0#3 ++ wbase ++ off

/-- The window offset of a bus address, none outside the window (R129). -/
def windowOffset (wbase : BitVec 6) (a : BusAddr) : Option Offset :=
  if a.extractLsb' 11 9 = 0#3 ++ wbase then some (a.extractLsb' 0 11) else none

end Sys2Proof.Machine
end

