-- ==== Sys2Proof/Machine/Ops.lean ====
section
/-! DEFINITION. The named operations every block uses on the records of State: reading and writing a slot, a
position, a group's settings and counters, and the reset of every block. -/

namespace Sys2Proof.Machine

/-- A vector with `f` applied to every entry. -/
def mapVec {α β : Type} {n : Nat} (f : α → β) (v : Vector α n) : Vector β n :=
  ⟨(v.toList.map f).toArray, by simp⟩

/-- Slot numbers 0 to 127 in ascending order. -/
def allSlots : List SlotNo := List.finRange 128

/-- Position numbers 0 to 3 in ascending order. -/
def allPositions : List PosNo := [0, 1, 2, 3]

/-- The record of slot `n` (R1). -/
def State.slot (s : State) (n : SlotNo) : Slot := s.slots[n]

/-- `s` with the record of slot `n` replaced. -/
def State.setSlot (s : State) (n : SlotNo) (v : Slot) : State := { s with slots := s.slots.set n v }

/-- The record of position `p` (R74). -/
def State.pos (s : State) (p : PosNo) : Position := s.positions[p]

/-- `s` with the record of position `p` replaced. -/
def State.setPos (s : State) (p : PosNo) (v : Position) : State := { s with positions := s.positions.set p v }

/-- The shadow of route group `g` (R1: a group's settings are read from the shadow when a rule needs them). -/
def State.group (s : State) (g : GroupNo) : GroupSettings := s.settings.groups[g]

/-- The traffic counters of route group `g` (R70). -/
def State.counts (s : State) (g : GroupNo) : Counters := s.counters[g]

/-- `s` with the traffic counters of route group `g` replaced. -/
def State.setCounts (s : State) (g : GroupNo) (v : Counters) : State := { s with counters := s.counters.set g v }

/-- The number of positions fitted, 1 to 4: POSN code k fits k + 1 (R201). -/
def State.fitted (s : State) : Nat := s.straps.posn.toNat + 1

/-- Position `p` is fitted (R74). -/
def State.isFitted (s : State) (p : PosNo) : Bool := decide (p.val < s.fitted)

/-- A count one higher, holding at its greatest value (R10, R12, R70, R90, R186). -/
def satInc {w : Nat} (x : BitVec w) : BitVec w := if x = BitVec.allOnes w then x else x + 1

/-- The current slot of position `p` (R75). -/
def State.currentSlot (s : State) (p : PosNo) : Option SlotNo :=
  match (s.pos p).state with
  | .engaged => (s.pos p).talking
  | .presenting => (s.pos p).presented
  | _ => none

/-- Position `p` is READY. -/
def State.isReady (s : State) (p : PosNo) : Bool := decide ((s.pos p).state = .ready)

/-- Position `p` is ENGAGED. -/
def State.isEngaged (s : State) (p : PosNo) : Bool := decide ((s.pos p).state = .engaged)

/-- No fitted position is ENGAGED: a drain can end (R119). -/
def State.noneEngaged (s : State) : Bool := allPositions.all fun p => !(s.isFitted p && s.isEngaged p)

/-- What every reset does to the blocks (R189): all state takes its reset values, the straps are sampled from their
pins, the cause is recorded and the sequencer enters its phase. The call store, the C-side bus in front of the part
and the queue of commands are not the part's, and stay. -/
def State.resetBlocks (s : State) (cause : ResetCause) (phase : Seq) : State :=
  { State.reset with
    pins := s.pins, straps := s.pins, resetCause := cause, seq := phase, mem := s.mem, bus := s.bus,
    pending := s.pending }

end Sys2Proof.Machine
end

