-- ==== Sys2Proof/Machine/Clock.lean ====
section
/-! DEFINITION. The Call Clock (chapter 5): prescaler, counters, and the deadline arithmetic all owners share. -/

namespace Sys2Proof.Machine

/-- The prescaler divisor of a REFSEL code (R99). -/
def prescalerDivisor (refsel : BitVec 2) : Nat :=
  match refsel.toNat with
  | 0 => 204800
  | 1 => 409600
  | _ => 819200

/-- A deadline armed now for an interval in seconds; an interval of 0 arms nothing (R103, R104). -/
def armAt (now : Tick) (seconds : BitVec 8) : Option Tick :=
  if seconds = 0 then none else some (now + 10#16 * seconds.setWidth 16)

/-- The test of an armed deadline (R105). -/
def expiredAt (now : Tick) (deadline : Option Tick) : Bool :=
  match deadline with
  | none => false
  | some d => decide ((now - d).toNat < 32768)

/-- The remaining time in whole seconds, rounded up; 0 when no deadline is armed (R109). DESIGN CHOICE (log entry 28) for
a deadline whose count has come and whose expiry has not been taken yet: it reads 0. -/
def remainingAt (now : Tick) (deadline : Option Tick) : Nat :=
  match deadline with
  | none => 0
  | some d => ((d - now).toNat + 9) / 10

/-- A deadline armed at the call tick count of this moment. -/
def State.arm (s : State) (seconds : BitVec 8) : Option Tick := armAt s.callTicks seconds

/-- A deadline is found expired at the call tick count of this moment. -/
def State.expired (s : State) (deadline : Option Tick) : Bool := expiredAt s.callTicks deadline

/-- A call tick's own change (R100, R101): the prescaler is back at 0 and the three counters step. In RUN, the tick at
which the divider becomes 0 is a second tick and is delivered to the Answer Queue and to the Slot Controller, which take
it as events of their own. In FILL and SWEEP nothing is delivered (R102). -/
def State.tick (s : State) : State :=
  let second := decide (s.seq = .run) && decide (s.divider + 1 = 0)
  { s with
    prescaler := 0
    callTicks := s.callTicks + 1
    divider := s.divider + 1
    cadence := s.cadence + 1
    secondAtQueue := second
    secondAtSlots := second }

end Sys2Proof.Machine
end

