-- ==== Sys2Proof/Machine/Formats.lean ====
section
/-! DEFINITION. Code tables and word layouts of chapter 13 (R197 to R200): what the part composes, and the fields it
reads from words. -/

namespace Sys2Proof.Machine

/-! Code tables (R199). -/

/-- Disposition codes (R5, R199). -/
def dispCode : Disp → BitVec 4
  | .free => 0
  | .queued => 1
  | .presented => 2
  | .talking => 3
  | .split => 4
  | .held => 5
  | .extended => 6
  | .camped => 7
  | .recall => 8

/-- The disposition of a code, none for 9 to Fh (R197). -/
def dispOfCode (c : BitVec 4) : Option Disp :=
  match c.toNat with
  | 0 => some .free
  | 1 => some .queued
  | 2 => some .presented
  | 3 => some .talking
  | 4 => some .split
  | 5 => some .held
  | 6 => some .extended
  | 7 => some .camped
  | 8 => some .recall
  | _ => none

/-- Results of a command (R199). -/
inductive Result where
  | taken
  | refusedState
  | refusedPosition
  | refusedClosed
  | refusedStack
  | refusedCode
  | refusedNoCall
  | refusedMode
  | refusedBarred
  deriving DecidableEq, Repr

/-- Result codes; 0 is never written (R198, R199). -/
def Result.code : Result → BitVec 8
  | .taken => 1
  | .refusedState => 2
  | .refusedPosition => 3
  | .refusedClosed => 4
  | .refusedStack => 5
  | .refusedCode => 6
  | .refusedNoCall => 7
  | .refusedMode => 8
  | .refusedBarred => 9

/-- The six lamp cadences (R173). -/
inductive Lamp where
  | dark
  | steady
  | flash
  | wink
  | flutter
  | pulse
  deriving DecidableEq, Repr

/-- Lamp cadence codes (R199). -/
def Lamp.code : Lamp → BitVec 8
  | .dark => 0
  | .steady => 1
  | .flash => 2
  | .wink => 3
  | .flutter => 4
  | .pulse => 5

/-- Position state codes (R199). -/
def posStateCode : PosState → BitVec 3
  | .closed => 0
  | .ready => 1
  | .presenting => 2
  | .engaged => 3
  | .wrapup => 4

/-- Actual mode codes (R199). -/
def modeCode : Mode → BitVec 2
  | .day => 1
  | .night => 2
  | .lapsed => 3

/-- Requested mode and MODE value codes (R199). -/
def serviceCode : Service → BitVec 2
  | .day => 1
  | .night => 2

/-- The mode value of a code, none where the code is undefined (R199). -/
def serviceOfCode (c : BitVec 2) : Option Service :=
  match c.toNat with
  | 1 => some .day
  | 2 => some .night
  | _ => none

/-- Reset cause codes (R199). -/
def resetCauseCode : ResetCause → BitVec 2
  | .power => 1
  | .pin => 2
  | .restart => 3

/-- Sequencer state codes (R199). -/
def seqCode : Seq → BitVec 2
  | .fill => 1
  | .sweep => 2
  | .run => 3

/-- Fault cause codes; none is 0 (R199). -/
def faultCauseCode : FaultCause → BitVec 3
  | .strayWrite => 1
  | .partialCommand => 2
  | .lineRefused => 3
  | .sweepDiscard => 4

/-- Requester codes; none is FFh (R197, R199). -/
def requesterCode : Option Requester → BitVec 8
  | some .console => 0
  | some .link => 1
  | some .maint => 2
  | some .other => 3
  | none => 0xFF

/-- Return kind codes; none is 0 (R197, R199). -/
def returnKindCode : Option ReturnKind → BitVec 2
  | none => 0
  | some .queued => 1
  | some .recall => 2

/-- A position or home in its 4-bit field, none as Fh (R197). -/
def posField : Option PosNo → BitVec 4
  | none => 0xF
  | some p => BitVec.ofNat 4 p.val

/-- A saved class in its 4-bit field, none as Fh (R197). -/
def classField : Option Class → BitVec 4
  | none => 0xF
  | some c => c.setWidth 4

/-- A slot in its 8-bit field, none as FFh (R197). -/
def slotField : Option SlotNo → BitVec 8
  | none => 0xFF
  | some n => BitVec.ofNat 8 n.val

/-- A threshold in its 3-bit field, none as 0 (R197). -/
def thresholdField : Option Class → BitVec 3
  | none => 0
  | some t => t

/-! Word layouts (R200), each written from its highest bits down. -/

/-- The DISPOSITION word of a slot record (R151, R200). -/
def dispositionWord (sl : Slot) : Word32 :=
  0#4 ++ returnKindCode sl.returnKind ++ BitVec.ofBool sl.breakIn ++ BitVec.ofBool sl.final ++ sl.recalls
    ++ BitVec.ofNat 5 sl.group.val ++ classField sl.savedClass ++ posField sl.home ++ posField sl.position
    ++ dispCode sl.disp

/-- The TIMING word of a slot (R110, R200). -/
def timingWord (elapsed : BitVec 12) (remaining : Nat) (u : Score) : Word32 :=
  u ++ BitVec.ofNat 8 remaining ++ 0#4 ++ elapsed

/-- The STATUS word of a position record (R97, R200), given its current slot and its ready-list place, 0 for none. -/
def statusWord (q : Position) (current : Option SlotNo) (place : Nat) : Word32 :=
  slotField q.presented ++ slotField current ++ BitVec.ofNat 3 place ++ thresholdField q.threshold
    ++ BitVec.ofNat 3 q.stack.length ++ q.misses ++ BitVec.ofBool q.closePending ++ posStateCode q.state

/-- A stack view word; an empty one reads 000000FFh (R152, R197, R200). -/
def stackWord : Option StackEntry → Word32
  | none => 0x000000FF#32
  | some e => 0#21 ++ e.threshold ++ slotField (some e.slot)

/-- A rank view word; an empty one reads 000000FFh (R68, R197, R200). -/
def rankWord : Option (SlotNo × Score × Disp) → Word32
  | none => 0x000000FF#32
  | some (n, u, d) => 0#12 ++ dispCode d ++ u ++ slotField (some n)

/-- The MODE status word (R128, R200). -/
def modeStatusWord (actual : Mode) (requested : Service) (pending : Bool) (cause : ResetCause) (seq : Seq) : Word32 :=
  0#18 ++ seqCode seq ++ 0#2 ++ resetCauseCode cause ++ 0#3 ++ BitVec.ofBool pending ++ serviceCode requested
    ++ modeCode actual

/-- The queue summary word (R69, R200). -/
def summaryWord (listed eligible : Nat) (best : Option SlotNo) (u : Score) : Word32 :=
  u ++ slotField best ++ BitVec.ofNat 8 eligible ++ BitVec.ofNat 8 listed

/-- The CALL CLOCK word (R154, R200). -/
def callClockWord (ticks : Tick) (cadence : Nat) : Word32 := 0#10 ++ BitVec.ofNat 6 cadence ++ ticks

/-- FAULT record word 014h (R155, R200). -/
def faultHeadWord (f : Option FaultEntry) (overflow : BitVec 4) : Word32 :=
  match f with
  | none => 0#8 ++ requesterCode none ++ 0#16
  | some e => 0#4 ++ overflow ++ requesterCode e.requester ++ 0#5 ++ faultCauseCode e.cause ++ 0#7 ++ 1#1

/-- FAULT record word 015h (R155, R200). -/
def faultOffsetWord : Option FaultEntry → Word32
  | none => 0
  | some e => 0#21 ++ e.offset

/-- FAULT record word 016h (R155, R200). -/
def faultValueWord : Option FaultEntry → Word32
  | none => 0
  | some e => e.value

/-- The ATTENTION word, and the ATTENTION enable word: a set of causes in bits 7:0 (R199, R200). -/
def causesWord (set : BitVec 8) : Word32 := 0#24 ++ set

/-- A counter word of two counts (R200). -/
def countsWord (low high : BitVec 16) : Word32 := high ++ low

/-- The first word of a route group (R200). -/
def groupFirstWord (g : GroupSettings) : Word32 :=
  0#5 ++ g.limit ++ 0#4 ++ g.step ++ g.grain ++ 0#5 ++ g.cls

/-- The second word of a route group (R200). -/
def groupSecondWord (g : GroupSettings) : Word32 := 0#8 ++ g.camp ++ g.transfer ++ g.hold

/-! Fields read from a DISPOSITION word found in memory (R193, R197). -/

/-- A position or home field: none of the outer Option for an undefined code 4 to Eh. -/
def posOfField (c : BitVec 4) : Option (Option PosNo) :=
  if h : c.toNat < 4 then some (some ⟨c.toNat, h⟩) else if c = 0xF then some none else none

/-- The group field: every code is a group. -/
def groupOfField (c : BitVec 5) : GroupNo := ⟨c.toNat, c.isLt⟩

/-- A return kind field: none of the outer Option for the undefined code 3. -/
def returnKindOfField (c : BitVec 2) : Option (Option ReturnKind) :=
  match c.toNat with
  | 0 => some none
  | 1 => some (some .queued)
  | 2 => some (some .recall)
  | _ => none

/-- A saved class field holds a class or the code for none (R197). -/
def classFieldDefined (c : BitVec 4) : Bool := decide (c.toNat < 8) || decide (c = 0xF)

end Sys2Proof.Machine
end

