-- ==== Sys2Proof/Machine/AnswerQueue.lean ====
section
/-! DEFINITION. The Answer Queue (chapter 3): the answer list, urgency scores, selection, rank order and traffic
counters. -/

namespace Sys2Proof.Machine

/-- The aging part A (R61, stage 2): 0 when the grain is 0. -/
def agingPart (grain step waited : Nat) : Nat := if grain = 0 then 0 else step * (waited / grain)

/-- The urgency score U (R61, R62): 255 under the final mark, else the lesser of 255 and B + A + R. -/
def urgency (g : GroupSettings) (waited recalls : Nat) (final : Bool) : Score :=
  if final then 255
  else BitVec.ofNat 8 (min 255 (32 * g.cls.toNat + agingPart g.grain.toNat g.step.toNat waited + 24 * recalls))

/-- The score of slot `n` from its record and its group's shadow as they stand (R60). -/
def State.score (s : State) (n : SlotNo) : Score :=
  let sl := s.slot n
  urgency (s.group sl.group) sl.elapsed.toNat sl.recalls.toNat sl.final

/-- Slot `n` joins the answer list at the end and is scored at once (R54). -/
def State.join (s : State) (n : SlotNo) : State := { s with answerList := s.answerList ++ [⟨n, s.score n⟩] }

/-- Slot `n` leaves the answer list from wherever it stands (R55). -/
def State.unlist (s : State) (n : SlotNo) : State :=
  { s with answerList := s.answerList.filter fun e => decide (e.slot ≠ n) }

/-- The kept score of slot `n`, 0 when it is not listed (R63). -/
def State.keptScore (s : State) (n : SlotNo) : Score :=
  match s.answerList.find? fun e => decide (e.slot = n) with
  | some e => e.score
  | none => 0

/-- A disposition that is eligible when listed (R57). -/
def Disp.isWaiting : Disp → Bool
  | .queued => true
  | .recall => true
  | _ => false

/-- A disposition that is listed (R5). -/
def Disp.isListed : Disp → Bool
  | .queued => true
  | .recall => true
  | .presented => true
  | _ => false

/-- An entry of the answer list is eligible (R57). -/
def State.eligible (s : State) (e : Listed) : Bool := (s.slot e.slot).disp.isWaiting

/-- The eligible entries in answer-list order. -/
def State.eligibleList (s : State) : List Listed := s.answerList.filter s.eligible

/-- Eligible slots are candidates: RUN, DAY and no night request pending (R57). -/
def State.presentsCalls (s : State) : Bool :=
  decide (s.seq = .run) && decide (s.actual = .day) && !s.nightPending

/-- The entry of greatest score, the earliest among equals (R64). -/
def bestOf : List Listed → Option Listed
  | [] => none
  | e :: rest =>
    match bestOf rest with
    | none => some e
    | some b => if e.score < b.score then some b else some e

/-- The best candidate (R64). -/
def State.bestCandidate (s : State) : Option Listed := if s.presentsCalls then bestOf s.eligibleList else none

/-- The current class of the group of slot `n` (R65). -/
def State.classOf (s : State) (n : SlotNo) : Class := (s.group (s.slot n).group).cls

/-- The best candidate at threshold `t` (R65). -/
def State.bestAt (s : State) (t : Class) : Option Listed :=
  if s.presentsCalls then bestOf (s.eligibleList.filter fun e => decide (t ≤ s.classOf e.slot)) else none

/-- `e` placed in a list already in rank order, ahead of entries of equal score (R68). -/
def rankInsert (e : Listed) : List Listed → List Listed
  | [] => [e]
  | x :: rest => if x.score ≤ e.score then e :: x :: rest else x :: rankInsert e rest

/-- The rank order: by score from greatest to least, equal scores in answer-list order (R68). -/
def rankOrder (l : List Listed) : List Listed := l.foldr rankInsert []

/-- One more OFFER counted for group `g` (R70). -/
def State.countOffered (s : State) (g : GroupNo) : State :=
  s.setCounts g { s.counts g with offered := satInc (s.counts g).offered }

/-- One more call of group `g` answered from the list (R70). -/
def State.countAnswered (s : State) (g : GroupNo) : State :=
  s.setCounts g { s.counts g with answered := satInc (s.counts g).answered }

/-- One more call of group `g` abandoned from the list (R70). -/
def State.countAbandoned (s : State) (g : GroupNo) : State :=
  s.setCounts g { s.counts g with abandoned := satInc (s.counts g).abandoned }

/-- One more recall transition of group `g` (R70). -/
def State.countRecalled (s : State) (g : GroupNo) : State :=
  s.setCounts g { s.counts g with recalled := satInc (s.counts g).recalled }

/-- One more second waited in the record of the listed slot `n`, holding at 4095 (R10, R59). -/
def State.ageSlot (s : State) (n : SlotNo) : State :=
  if (s.slot n).disp.isListed then s.setSlot n { s.slot n with elapsed := satInc (s.slot n).elapsed } else s

/-- Every listed slot waits one second more (R59, step 1). -/
def State.ageListed (s : State) : State := s.answerList.foldl (fun t e => t.ageSlot e.slot) s

/-- Every listed slot is scored with the W just reached (R59, step 2). -/
def State.rescore (s : State) : State :=
  { s with answerList := s.answerList.map fun e => { e with score := s.score e.slot } }

/-- Dispositions whose seconds the Slot Controller counts (R10). -/
def Disp.agesAtSlot : Disp → Bool
  | .talking => true
  | .split => true
  | .held => true
  | .extended => true
  | .camped => true
  | _ => false

/-- A slot record after the Slot Controller's second tick (R10). -/
def Slot.aged (sl : Slot) : Slot := if sl.disp.agesAtSlot then { sl with elapsed := satInc sl.elapsed } else sl

end Sys2Proof.Machine
end

