-- ==== Sys2Proof/Machine/Flags.lean ====
section
/-! DEFINITION. The Attention Unit (chapter 11): the latched causes, the fault record and its overflow count, and
acknowledgement. -/

namespace Sys2Proof.Machine

/-- The bit of each cause in the ATTENTION word and in the enable word (R199). -/
def causeQueueEntry : BitVec 8 := 0x01#8
/-- RECALL. -/
def causeRecall : BitVec 8 := 0x02#8
/-- MISS. -/
def causeMiss : BitVec 8 := 0x04#8
/-- AUTOCLOSE. -/
def causeAutoclose : BitVec 8 := 0x08#8
/-- LAPSE. -/
def causeLapse : BitVec 8 := 0x10#8
/-- MODE. -/
def causeMode : BitVec 8 := 0x20#8
/-- FAULT. -/
def causeFault : BitVec 8 := 0x40#8
/-- STARTED. -/
def causeStarted : BitVec 8 := 0x80#8

/-- A cause latches, whatever the enable set holds (R182). -/
def State.latch (s : State) (cause : BitVec 8) : State := { s with latched := s.latched ||| cause }

/-- A fault reaches the Attention Unit (R186): it fills a record that is not valid and latches FAULT, or advances the
overflow count of one that is, which holds at 15. -/
def State.raiseFault (s : State) (f : FaultEntry) : State :=
  match s.fault with
  | none => { s with fault := some f, overflow := 0, latched := s.latched ||| causeFault }
  | some _ => { s with overflow := satInc s.overflow }

/-- An acknowledgement that names the causes of `named` (R184): they leave the latched set, and naming FAULT while
it is latched clears the fault record (R187). -/
def State.acknowledge (s : State) (named : BitVec 8) : State :=
  let cleared := { s with latched := s.latched &&& ~~~named }
  if s.latched &&& named &&& causeFault = causeFault then { cleared with fault := none, overflow := 0 } else cleared

/-- The causes an ATTENTION write names: places set in enabled lanes; all eight lie in lane 0 (R137, R199). -/
def namedCauses (lanes : Lanes) (data : Word32) : BitVec 8 := if lanes.getLsbD 0 then laneOf data 0 else 0

/-- The value a fault records: the value as written, with the bytes of lanes not enabled as 0 (R136, R145). -/
def recordedValue (lanes : Lanes) (data : Word32) : Word32 := mergeLanes lanes data 0

end Sys2Proof.Machine
end

