-- ==== Sys2Proof/Machine/Slots.lean ====
section
/-! DEFINITION. The Slot Controller's moves of one slot record between dispositions (R3, R4, R7, R8, R11), the
clearing to FREE (R14) and the recall transition (R12). -/

namespace Sys2Proof.Machine

/-- FREE to QUEUED by OFFER (R17). -/
def Slot.offered (g : GroupNo) : Slot := { Slot.empty with disp := .queued, group := g }

/-- QUEUED or RECALL to PRESENTED at position `p` (R84, R85): the return kind is the disposition it had, and the
elapsed count is kept (R11). -/
def Slot.presentedAt (sl : Slot) (p : PosNo) (breakIn : Bool) (deadline : Option Tick) : Slot :=
  { sl with
    disp := .presented, position := some p, breakIn := breakIn, deadline := deadline, savedClass := none
    returnKind := some (if sl.disp = .recall then .recall else .queued) }

/-- PRESENTED back to its return kind (R88): the elapsed count is kept, and the position field is the home for RECALL
and none for QUEUED (R3). -/
def Slot.returned (sl : Slot) : Slot :=
  if sl.returnKind = some .recall then
    { sl with disp := .recall, position := sl.home, returnKind := none, breakIn := false, deadline := none,
              savedClass := none }
  else
    { sl with disp := .queued, position := none, returnKind := none, breakIn := false, deadline := none,
              savedClass := none }

/-- To TALKING by an ANSWER at position `p`, with the class saved at that moment (R35). -/
def Slot.answeredAt (sl : Slot) (p : PosNo) (c : Class) : Slot :=
  { sl with
    disp := .talking, position := some p, home := some p, returnKind := none, breakIn := false, elapsed := 0
    deadline := none, savedClass := some c }

/-- TALKING to SPLIT at a push or a SWAP (R33, R39). -/
def Slot.setAside (sl : Slot) : Slot :=
  { sl with disp := .split, elapsed := 0, deadline := none, returnKind := none, breakIn := false }

/-- SPLIT to TALKING at a pop or a SWAP (R39, R44). -/
def Slot.broughtBack (sl : Slot) : Slot :=
  { sl with disp := .talking, elapsed := 0, deadline := none, returnKind := none, breakIn := false }

/-- To HELD, EXTENDED or CAMPED with the timer of that disposition (R7, R25, R26, R37, R40). -/
def Slot.away (sl : Slot) (d : Disp) (deadline : Option Tick) : Slot :=
  { sl with
    disp := d, position := sl.home, returnKind := none, breakIn := false, elapsed := 0, deadline := deadline
    savedClass := none }

/-- The slot record after steps 1 to 5 of the recall transition (R12), `limit` being the group's recall limit. -/
def Slot.recalled (sl : Slot) (limit : BitVec 3) : Slot :=
  { sl with
    disp := .recall, position := sl.home, returnKind := none, breakIn := false, elapsed := 0, deadline := none
    savedClass := none, recalls := satInc sl.recalls
    final := sl.final || decide (limit ≤ satInc sl.recalls) }

/-- Slot `n` goes FREE (R14). -/
def State.freeSlot (s : State) (n : SlotNo) : State := (s.setSlot n Slot.empty).unlist n

/-- Slot `n` leaves PRESENTED for its return kind (R88); it keeps its place in the answer list. -/
def State.returnSlot (s : State) (n : SlotNo) : State := s.setSlot n (s.slot n).returned

/-- The recall transition of slot `n` (R12), before the Presentation Arbiter acts. -/
def State.recallSlot (s : State) (n : SlotNo) : State :=
  let sl := s.slot n
  let moved := s.setSlot n (sl.recalled (s.group sl.group).limit)
  ((moved.join n).latch causeRecall).countRecalled sl.group

end Sys2Proof.Machine
end

