-- ==== Sys2Proof/Machine/Positions.lean ====
section
/-! DEFINITION. The Position Controller (chapter 4 and sections 2.5 and 2.6): ready list, withdrawal, the split stack,
the threshold and the re-test of a break-in offer. -/

namespace Sys2Proof.Machine

/-- A position record in a state without calls: only the miss count is kept (R74, R75). -/
def Position.bare (q : Position) (st : PosState) : Position := { Position.empty with state := st, misses := q.misses }

/-- The ready list without position `p`: those behind it move forward (R82). -/
def withoutPos (l : List PosNo) (p : PosNo) : List PosNo := l.filter fun x => decide (x ≠ p)

/-- Position `p` becomes READY at the end of the ready list (R82). -/
def State.becomeReady (s : State) (p : PosNo) : State :=
  { s.setPos p ((s.pos p).bare .ready) with readyList := withoutPos s.readyList p ++ [p] }

/-- Position `p` becomes CLOSED and is in no ready list; the miss count is kept (R79). -/
def State.becomeClosed (s : State) (p : PosNo) : State :=
  { s.setPos p ((s.pos p).bare .closed) with readyList := withoutPos s.readyList p }

/-- Position `p` enters WRAPUP with the guard read now, and is in no ready list (R43, R82). -/
def State.becomeWrapup (s : State) (p : PosNo) : State :=
  { s.setPos p { (s.pos p).bare .wrapup with wrapDeadline := s.arm s.settings.wrapGuard } with
    readyList := withoutPos s.readyList p }

/-- What position `p` presents or is offered is withdrawn: the slot returns to its return kind and the position loses
it, its state otherwise as it was (R88). -/
def State.withdraw (s : State) (p : PosNo) : State :=
  match (s.pos p).presented with
  | none => s
  | some n => (s.returnSlot n).setPos p { s.pos p with presented := none }

/-- The threshold a talking call of saved class `c` gives: the lesser of 7 and c + 1 (R46). -/
def thresholdFor (c : Class) : Class := satInc c

/-- A break-in offer of slot `n` still stands at position `p`: its class reaches the threshold and the stack has room
(R47). -/
def State.offerStands (s : State) (p : PosNo) (n : SlotNo) : Bool :=
  (match (s.pos p).threshold with
    | some t => decide (t ≤ s.classOf n)
    | none => false) && decide ((s.pos p).stack.length < Config.stackDepth)

/-- The re-test of the break-in offer of position `p`, which withdraws it when it no longer stands (R47). -/
def State.retest (s : State) (p : PosNo) : State :=
  match (s.pos p).presented with
  | none => s
  | some n => if s.offerStands p n then s else s.withdraw p

/-- The top entry of the stack of position `p` is popped: its slot talks again, its saved threshold is restored, and a
standing offer is re-tested against it (R21, R44). -/
def State.popStack (s : State) (p : PosNo) (top : StackEntry) (rest : List StackEntry) : State :=
  ((s.setSlot top.slot (s.slot top.slot).broughtBack).setPos p
    { s.pos p with talking := some top.slot, threshold := some top.threshold, stack := rest }).retest p

/-- The entry of slot `n` is removed from a stack wherever it stands (R22). -/
def dropEntry (stack : List StackEntry) (n : SlotNo) : List StackEntry :=
  stack.filter fun e => decide (e.slot ≠ n)

/-- The ready-list place of position `p`, 1 to 4, or 0 for none (R82). -/
def State.readyPlace (s : State) (p : PosNo) : Nat :=
  match s.readyList.findIdx? fun x => decide (x = p) with
  | some i => i + 1
  | none => 0

end Sys2Proof.Machine
end

