-- ==== Sys2Proof/Machine/Arbiter.lean ====
section
/-! DEFINITION. The Presentation Arbiter (section 4.4): ordinary presentations, break-in offers, and which changes of a
position call it. -/

namespace Sys2Proof.Machine

/-- Slot `n` is presented to the READY position `p` (R84). -/
def State.presentTo (s : State) (n : SlotNo) (p : PosNo) : State :=
  let moved := s.setSlot n ((s.slot n).presentedAt p false (s.arm s.settings.present))
  { moved.setPos p { (s.pos p).bare .presenting with presented := some n } with
    readyList := withoutPos s.readyList p }

/-- Slot `n` is offered to the ENGAGED position `p` as a break-in (R85). -/
def State.offerTo (s : State) (n : SlotNo) (p : PosNo) : State :=
  (s.setSlot n ((s.slot n).presentedAt p true (s.arm s.settings.present))).setPos p
    { s.pos p with presented := some n }

/-- The position that receives an ordinary presentation of slot `n`: its READY home when it is RECALL, else the first
of the ready list (R84). -/
def State.receiver (s : State) (n : SlotNo) (first : PosNo) : PosNo :=
  match (s.slot n).disp, (s.slot n).home with
  | .recall, some h => if s.isReady h then h else first
  | _, _ => first

/-- Ordinary presentations for as long as there are a best candidate and a READY position (R84, R86); each takes one
position out of the ready list, so its length bounds them. -/
def State.presentAll : Nat → State → State
  | 0, s => s
  | k + 1, s =>
    match s.bestCandidate, s.readyList with
    | some e, first :: _ => State.presentAll k (s.presentTo e.slot (s.receiver e.slot first))
    | _, _ => s

/-- Position `p` qualifies for a break-in offer, by its threshold (R85). -/
def State.qualifying (s : State) (p : PosNo) : Option Class :=
  let q := s.pos p
  if s.isFitted p && s.isEngaged p && q.presented.isNone && !q.closePending
      && decide (q.stack.length < Config.stackDepth) then q.threshold
  else none

/-- The qualifying position of lowest threshold, the lowest number among equals (R85, steps 1 and 3). -/
def State.lowestQualifying (s : State) : List PosNo → Option (PosNo × Class)
  | [] => none
  | p :: rest =>
    match s.qualifying p, s.lowestQualifying rest with
    | none, r => r
    | some t, none => some (p, t)
    | some t, some (q, u) => if u < t then some (q, u) else some (p, t)

/-- Break-in offers for as long as the ready list is empty, a position qualifies and a candidate reaches its threshold
(R85, R86); each takes one position out of further consideration. -/
def State.offerAll : Nat → State → State
  | 0, s => s
  | k + 1, s =>
    if s.readyList = [] then
      match s.lowestQualifying allPositions with
      | some (p, t) =>
        match s.bestAt t with
        | some e => State.offerAll k (s.offerTo e.slot p)
        | none => s
      | none => s
    else s

/-- The Presentation Arbiter acts (R83, R86). -/
def State.arbitrate (s : State) : State := State.offerAll 4 (State.presentAll s.readyList.length s)

/-- What an event changed in one position record calls the arbiter (R83): the position has become READY, its
presentation or offer has ended, or, while it stays ENGAGED, a pop has set its threshold (R44) or its stack has fallen
below 4 entries. DEDUCED (log entry 6) for a pop that sets the threshold to the value it had. -/
def positionCalls (old new : Position) : Bool :=
  (decide (new.state = .ready) && decide (old.state ≠ .ready))
    || (old.presented.isSome && new.presented.isNone)
    || (decide (old.state = .engaged) && decide (new.state = .engaged)
        && (decide (old.talking ≠ new.talking)
            || (decide (Config.stackDepth ≤ old.stack.length) && decide (new.stack.length < Config.stackDepth))))

/-- The arbiter acts when what has become of position `p`, which was `old` before the event, calls it (R83). -/
def State.arbitrateAfter (s : State) (p : PosNo) (old : Position) : State :=
  if positionCalls old (s.pos p) then s.arbitrate else s

end Sys2Proof.Machine
end

