-- ==== Sys2Proof/Machine/ModeUnit.lean ====
section
/-! DEFINITION. The Mode Unit (chapter 6): service modes, the night request and its drain, heartbeat and lapse. A change
of mode to NIGHT or LAPSED calls the arbiter (R116), which finds no candidate there (R57) and changes nothing. -/

namespace Sys2Proof.Machine

/-- The supervision interval in seconds of a SUPERVISION code; code 0 is off (R122). -/
def supervisionSeconds (code : BitVec 8) : BitVec 8 :=
  match code.toNat with
  | 0 => 0
  | 1 => 2
  | 2 => 4
  | 3 => 8
  | _ => 16

/-- The supervision deadline armed with the interval of the code read now, or none when it is off (R122). -/
def State.armSupervision (s : State) : State :=
  { s with supervision := s.arm (supervisionSeconds s.settings.supervision) }

/-- The actual mode becomes NIGHT (R119). -/
def State.enterNight (s : State) : State :=
  { s with actual := .night, nightPending := false, supervision := none }.latch causeMode

/-- The end of a drain: a close-pending position has closed (R119). In LAPSED the request stays pending (R124). -/
def State.drained (s : State) : State :=
  if s.nightPending && decide (s.actual = .day) && s.noneEngaged then s.enterNight else s

/-- What a night request does to position `p` (R118): an ENGAGED one is marked close-pending and loses its offer, any
other is closed and what it was presenting returns. -/
def State.nightClose (s : State) (p : PosNo) : State :=
  match (s.pos p).state with
  | .closed => s
  | .engaged => (s.withdraw p).setPos p { (s.withdraw p).pos p with closePending := true }
  | _ => (s.withdraw p).becomeClosed p

/-- The night request (R118): NIGHT at once when no position is ENGAGED, else the mark is set. -/
def State.nightRequest (s : State) : State :=
  let closed := allPositions.foldl State.nightClose s
  if closed.noneEngaged then closed.enterNight else { closed with nightPending := true }

/-- The actual mode becomes DAY, with supervision armed (R120, R125). -/
def State.enterDay (s : State) : State := ({ s with actual := .day }.armSupervision).latch causeMode

/-- The Mode Unit takes mode value `v` of a MODE write (R117). -/
def State.takeMode (s : State) (v : Service) : State :=
  let asked := { s with requested := v }
  match s.actual, v with
  | .day, .night => if s.nightPending then asked else asked.nightRequest
  | .day, .day => if s.nightPending then { asked with nightPending := false }.arbitrate else asked
  | .night, .day => asked.enterDay.arbitrate
  | .night, .night => asked
  | .lapsed, _ => asked

/-- The Mode Unit takes a heartbeat (R122, R125, R138). -/
def State.takeHeartbeat (s : State) : State :=
  match s.actual with
  | .day => s.armSupervision
  | .night => s
  | .lapsed =>
    match s.requested with
    | .day => { s.enterDay with nightPending := false }.arbitrate
    | .night => s.enterDay.nightRequest

/-- What a lapse does to position `p` (R123): a PRESENTING one becomes READY, an ENGAGED one loses its offer. -/
def State.lapsePosition (s : State) (p : PosNo) : State :=
  match (s.pos p).state with
  | .presenting => (s.withdraw p).becomeReady p
  | .engaged => s.withdraw p
  | _ => s

/-- The part enters LAPSED (R123). -/
def State.lapse (s : State) : State :=
  (allPositions.foldl State.lapsePosition { s with supervision := none, actual := .lapsed }).latch
    (causeLapse ||| causeMode)

end Sys2Proof.Machine
end

