-- ==== Sys2Proof/Machine/Calls.lean ====
section
/-! DEFINITION. How a position leaves a call (R38, R43, R48), and how a presentation ends because its call is gone or
answered elsewhere (R20, R34). -/

namespace Sys2Proof.Machine

/-- What a command that is taken or refused leaves, with its result (R134). -/
structure Verdict where
  state  : State
  result : Result
  deriving DecidableEq, Repr

/-- Position `p` is left without its talking call and without a stacked one: its offer is withdrawn first (R48), then it
closes if close-pending, which may end a drain, becomes READY after a HOLD or when the guard is 0, and else enters
WRAPUP (R38, R43). -/
def State.leaveEngaged (s : State) (p : PosNo) (byHold : Bool) : State :=
  let w := s.withdraw p
  if (s.pos p).closePending then (w.becomeClosed p).drained
  else if byHold || decide (s.settings.wrapGuard = 0) then w.becomeReady p
  else w.becomeWrapup p

/-- The talking call of position `p` has left: the stack is popped, or the position leaves ENGAGED (R38, R43). -/
def State.leaveCall (s : State) (p : PosNo) (byHold : Bool) : State :=
  match (s.pos p).stack with
  | top :: rest => s.popStack p top rest
  | [] => s.leaveEngaged p byHold

/-- Position `p`, which presents or is offered a slot that is gone or answered elsewhere, loses it without a miss:
a PRESENTING one becomes READY, an ENGAGED one stays ENGAGED (R20, R34). -/
def State.releasePresenter (s : State) (p : PosNo) : State :=
  match (s.pos p).state with
  | .presenting => s.becomeReady p
  | _ => s.setPos p { s.pos p with presented := none }

end Sys2Proof.Machine
end

