-- ==== Sys2Proof/Machine/Actions.lean ====
section
/-! DEFINITION. Attendant actions (chapter 2): the tests of R30 in their order, and what each action does. -/

namespace Sys2Proof.Machine

/-- The five actions (R30). -/
inductive Action where
  | answer
  | hold
  | swap
  | extend
  | release
  deriving DecidableEq, Repr

/-- The action of a code, none where it is undefined (R198, R199). -/
def actionOfCode (code : BitVec 8) : Option Action :=
  match code.toNat with
  | 1 => some .answer
  | 2 => some .hold
  | 3 => some .swap
  | 4 => some .extend
  | 5 => some .release
  | _ => none

/-- The fitted position a position field names, none where step 2 of R30 fails (R198). -/
def State.namedPosition (s : State) (field : BitVec 8) : Option PosNo :=
  if h : field.toNat < 4 then (if s.isFitted ⟨field.toNat, h⟩ then some ⟨field.toNat, h⟩ else none) else none

/-- The dispositions ANSWER applies to (R30). -/
def Disp.isAnswerable : Disp → Bool
  | .queued => true
  | .recall => true
  | .presented => true
  | .held => true
  | _ => false

/-- An ENGAGED position that answers sets its talking call aside on top of its stack (R33). -/
def State.pushTalking (s : State) (p : PosNo) : State :=
  match (s.pos p).state, (s.pos p).talking, (s.pos p).threshold with
  | .engaged, some m, some t =>
    (s.setSlot m (s.slot m).setAside).setPos p { s.pos p with stack := ⟨m, t⟩ :: (s.pos p).stack }
  | _, _, _ => s

/-- A presentation of slot `n` at a position other than `p`, where it is answered, ends there without a miss (R34). -/
def State.endElsewhere (s : State) (n : SlotNo) (p : PosNo) : State :=
  match (s.slot n).disp, (s.slot n).position with
  | .presented, some o => if o = p then s else s.releasePresenter o
  | _, _ => s

/-- The presentations that stand in the way of an ANSWER of slot `n` at position `p` end without a miss (R34): that of
`n` at another position, and that of another slot at the PRESENTING position `p`. -/
def State.clearForAnswer (s : State) (n : SlotNo) (p : PosNo) : State :=
  if (s.pos p).state = .presenting && decide ((s.pos p).presented ≠ some n) then (s.endElsewhere n p).withdraw p
  else s.endElsewhere n p

/-- The record of position `p` once slot `n`, with saved class `c`, is its talking call (R35): an offer of another slot
stands on until its re-test. -/
def Position.engagedWith (q : Position) (n : SlotNo) (c : Class) : Position :=
  { q with
    state := .engaged, talking := some n, threshold := some (thresholdFor c), misses := 0, wrapDeadline := none
    presented := if q.state = .engaged && decide (q.presented ≠ some n) then q.presented else none }

/-- ANSWER taken (R33 to R36): presentations in the way end, the talking call is pushed, the slot talks at the position
and leaves the list, a standing offer is re-tested and the arbiter acts. -/
def State.answerTaken (s : State) (n : SlotNo) (p : PosNo) : State :=
  let cleared := s.clearForAnswer n p
  let pushed := cleared.pushTalking p
  let c := s.classOf n
  let talking := pushed.setSlot n ((s.slot n).answeredAt p c)
  let engaged := { talking.setPos p ((pushed.pos p).engagedWith n c) with readyList := withoutPos talking.readyList p }
  let counted :=
    if (s.slot n).disp.isListed then (engaged.unlist n).countAnswered (s.slot n).group else engaged
  (counted.retest p).arbitrate

/-- ANSWER (R30, R32). -/
def State.answerAction (s : State) (n : SlotNo) (p : PosNo) : Verdict :=
  if (s.slot n).disp.isAnswerable then
    if (s.pos p).state = .closed then ⟨s, .refusedClosed⟩
    else if s.isEngaged p && decide (Config.stackDepth ≤ (s.pos p).stack.length) then ⟨s, .refusedStack⟩
    else ⟨s.answerTaken n p, .taken⟩
  else ⟨s, .refusedState⟩

/-- HOLD taken (R37, R38). -/
def State.holdTaken (s : State) (n : SlotNo) (p : PosNo) : State :=
  let held := s.setSlot n ((s.slot n).away .held (s.arm (s.group (s.slot n).group).hold))
  (held.leaveCall p true).arbitrateAfter p (s.pos p)

/-- EXTEND taken (R40). -/
def State.extendTaken (s : State) (n : SlotNo) (p : PosNo) : State :=
  let extended := s.setSlot n ((s.slot n).away .extended (s.arm (s.group (s.slot n).group).transfer))
  (extended.leaveCall p false).arbitrateAfter p (s.pos p)

/-- RELEASE of a TALKING slot taken (R41). -/
def State.releaseTaken (s : State) (n : SlotNo) (p : PosNo) : State :=
  ((s.freeSlot n).leaveCall p false).arbitrateAfter p (s.pos p)

/-- SWAP taken: the talking call `n` and the top entry change places, a standing offer is re-tested and the arbiter acts
(R39, R47, R83). DEDUCED (log entry 6) where the two thresholds are equal. -/
def State.swapTaken (s : State) (n : SlotNo) (p : PosNo) (top : StackEntry) (rest : List StackEntry) : State :=
  let q := s.pos p
  let aside := s.setSlot n (s.slot n).setAside
  let back := aside.setSlot top.slot (aside.slot top.slot).broughtBack
  let saved : Class := match q.threshold with
    | some t => t
    | none => thresholdFor 0
  let swapped := back.setPos p
    { q with talking := some top.slot, threshold := some top.threshold, stack := ⟨n, saved⟩ :: rest }
  (swapped.retest p).arbitrate

/-- Steps 3 and 4 of R30 for an action on a TALKING slot at the position named. -/
def State.judgeTalking (s : State) (n : SlotNo) (p : PosNo) : Option Result :=
  if (s.slot n).disp = .talking then (if (s.slot n).position = some p then none else some .refusedPosition)
  else some .refusedState

/-- HOLD (R30, R37). -/
def State.holdAction (s : State) (n : SlotNo) (p : PosNo) : Verdict :=
  match s.judgeTalking n p with
  | some r => ⟨s, r⟩
  | none => ⟨s.holdTaken n p, .taken⟩

/-- SWAP (R30, R39). -/
def State.swapAction (s : State) (n : SlotNo) (p : PosNo) : Verdict :=
  match s.judgeTalking n p with
  | some r => ⟨s, r⟩
  | none =>
    match (s.pos p).stack with
    | [] => ⟨s, .refusedStack⟩
    | top :: rest => ⟨s.swapTaken n p top rest, .taken⟩

/-- EXTEND (R30, R40). -/
def State.extendAction (s : State) (n : SlotNo) (p : PosNo) : Verdict :=
  match s.judgeTalking n p with
  | some r => ⟨s, r⟩
  | none => ⟨s.extendTaken n p, .taken⟩

/-- RELEASE (R30, R41, R42): a HELD slot is freed from any fitted position. -/
def State.releaseAction (s : State) (n : SlotNo) (p : PosNo) : Verdict :=
  if (s.slot n).disp = .held then ⟨s.freeSlot n, .taken⟩
  else
    match s.judgeTalking n p with
    | some r => ⟨s, r⟩
    | none => ⟨s.releaseTaken n p, .taken⟩

/-- An action by its code and position field (R30, R198). -/
def State.actionEvent (s : State) (n : SlotNo) (code field : BitVec 8) : Verdict :=
  match actionOfCode code with
  | none => ⟨s, .refusedCode⟩
  | some a =>
    match s.namedPosition field with
    | none => ⟨s, .refusedPosition⟩
    | some p =>
      match a with
      | .answer => s.answerAction n p
      | .hold => s.holdAction n p
      | .swap => s.swapAction n p
      | .extend => s.extendAction n p
      | .release => s.releaseAction n p

end Sys2Proof.Machine
end

