-- ==== Sys2Proof/Machine/Control.lean ====
section
/-! DEFINITION. The CONTROL word (section 4.2): OPEN and CLOSE. -/

namespace Sys2Proof.Machine

/-- OPEN taken at position `p` (R78): only a CLOSED position changes. -/
def State.openTaken (s : State) (p : PosNo) : State :=
  if (s.pos p).state = .closed then ((s.setPos p { s.pos p with misses := 0 }).becomeReady p).arbitrate else s

/-- CLOSE taken at position `p` (R79 to R81). -/
def State.closeTaken (s : State) (p : PosNo) : State :=
  match (s.pos p).state with
  | .closed => s
  | .ready => s.becomeClosed p
  | .wrapup => s.becomeClosed p
  | .presenting => ((s.withdraw p).becomeClosed p).arbitrate
  | .engaged =>
    ((s.withdraw p).setPos p { (s.withdraw p).pos p with closePending := true }).arbitrateAfter p (s.pos p)

/-- A CONTROL command by its code, judged in the order of R77. -/
def State.controlEvent (s : State) (p : PosNo) (code : BitVec 8) : Verdict :=
  match code.toNat with
  | 1 =>
    if s.isFitted p then
      (if decide (s.actual = .night) || s.nightPending then ⟨s, .refusedMode⟩ else ⟨s.openTaken p, .taken⟩)
    else ⟨s, .refusedPosition⟩
  | 2 => if s.isFitted p then ⟨s.closeTaken p, .taken⟩ else ⟨s, .refusedPosition⟩
  | _ => ⟨s, .refusedCode⟩

end Sys2Proof.Machine
end

