-- ==== Sys2Proof/Machine/LineEvents.lean ====
section
/-! DEFINITION. Line events (sections 1.7 to 1.11): what each does to the slot, its position and the answer list, in each
disposition. A refused event leaves the state as it was here; its fault is raised with the write (R16). -/

namespace Sys2Proof.Machine

/-- OFFER naming group `g` (R17, R18). -/
def State.offerEvent (s : State) (n : SlotNo) (g : GroupNo) : Verdict :=
  if (s.slot n).disp = .free then
    if (s.group g).cls = 0 then ⟨s, .refusedBarred⟩
    else
      let queued := (s.setSlot n (Slot.offered g)).join n
      ⟨((queued.countOffered g).latch causeQueueEntry).arbitrate, .taken⟩
  else ⟨s, .refusedState⟩

/-- ABANDON of a QUEUED or RECALL slot: the arbiter is not called (R19). -/
def State.abandonWaiting (s : State) (n : SlotNo) : State := (s.freeSlot n).countAbandoned (s.slot n).group

/-- ABANDON of a PRESENTED slot (R20). -/
def State.abandonPresented (s : State) (n : SlotNo) : State :=
  let gone := s.abandonWaiting n
  match (s.slot n).position with
  | some p => (gone.releasePresenter p).arbitrate
  | none => gone.arbitrate

/-- ABANDON of a TALKING slot: the wrap-up path (R21). -/
def State.abandonTalking (s : State) (n : SlotNo) : State :=
  match (s.slot n).position with
  | some p => ((s.freeSlot n).leaveCall p false).arbitrateAfter p (s.pos p)
  | none => s.freeSlot n

/-- ABANDON of a SPLIT slot: its entry leaves the stack from wherever it stands (R22). -/
def State.abandonSplit (s : State) (n : SlotNo) : State :=
  match (s.slot n).position with
  | some p =>
    ((s.freeSlot n).setPos p { s.pos p with stack := dropEntry (s.pos p).stack n }).arbitrateAfter p (s.pos p)
  | none => s.freeSlot n

/-- ABANDON (R19 to R23). -/
def State.abandonEvent (s : State) (n : SlotNo) : Verdict :=
  match (s.slot n).disp with
  | .free => ⟨s, .refusedState⟩
  | .queued => ⟨s.abandonWaiting n, .taken⟩
  | .recall => ⟨s.abandonWaiting n, .taken⟩
  | .presented => ⟨s.abandonPresented n, .taken⟩
  | .talking => ⟨s.abandonTalking n, .taken⟩
  | .split => ⟨s.abandonSplit n, .taken⟩
  | .held => ⟨s.freeSlot n, .taken⟩
  | .extended => ⟨s.freeSlot n, .taken⟩
  | .camped => ⟨s.freeSlot n, .taken⟩

/-- An EXTENDED or CAMPED slot. -/
def Disp.isAtDestination : Disp → Bool
  | .extended => true
  | .camped => true
  | _ => false

/-- EXT_ANSWER (R24). -/
def State.extAnswerEvent (s : State) (n : SlotNo) : Verdict :=
  if (s.slot n).disp.isAtDestination then ⟨s.freeSlot n, .taken⟩ else ⟨s, .refusedState⟩

/-- EXT_BUSY (R25). -/
def State.extBusyEvent (s : State) (n : SlotNo) : Verdict :=
  if (s.slot n).disp = .extended then
    ⟨s.setSlot n ((s.slot n).away .camped (s.arm (s.group (s.slot n).group).camp)), .taken⟩
  else ⟨s, .refusedState⟩

/-- EXT_FREE (R26). -/
def State.extFreeEvent (s : State) (n : SlotNo) : Verdict :=
  if (s.slot n).disp = .camped then
    ⟨s.setSlot n ((s.slot n).away .extended (s.arm (s.group (s.slot n).group).transfer)), .taken⟩
  else ⟨s, .refusedState⟩

/-- EXT_FAIL: the recall transition at once (R27). -/
def State.extFailEvent (s : State) (n : SlotNo) : Verdict :=
  if (s.slot n).disp.isAtDestination then ⟨(s.recallSlot n).arbitrate, .taken⟩ else ⟨s, .refusedState⟩

/-- A line event by its code (R15, R28, R198, R199). -/
def State.lineEvent (s : State) (n : SlotNo) (code : BitVec 8) (g : GroupNo) : Verdict :=
  match code.toNat with
  | 1 => s.offerEvent n g
  | 2 => s.abandonEvent n
  | 3 => s.extAnswerEvent n
  | 4 => s.extBusyEvent n
  | 5 => s.extFreeEvent n
  | 6 => s.extFailEvent n
  | _ => ⟨s, .refusedCode⟩

end Sys2Proof.Machine
end

