-- ==== Sys2Proof/Machine/Cadence.lean ====
section
/-! DEFINITION. The Cadence Unit (chapter 10) and the output pins (R201): lamps, bell, ATTN_N, NIGHT and the C-side
ready. The unit holds nothing between events (R179), so each output is a function of State. -/

namespace Sys2Proof.Machine

/-- The lamp cadence of a disposition (R174). -/
def lampOf : Disp → Lamp
  | .free => .dark
  | .queued => .flash
  | .presented => .flutter
  | .talking => .steady
  | .split => .wink
  | .held => .wink
  | .extended => .pulse
  | .camped => .pulse
  | .recall => .flutter

/-- A lamp cadence is lit at lamp phase `phi`, 0 to 9 (R173). -/
def Lamp.lit (l : Lamp) (phi : Nat) : Bool :=
  match l with
  | .dark => false
  | .steady => true
  | .flash => decide (phi ≤ 4)
  | .wink => decide (phi ≤ 8)
  | .flutter => decide (phi % 2 = 0)
  | .pulse => decide (phi = 0)

/-- The lamp of slot `n` is lit now (R176). -/
def State.lampLit (s : State) (n : SlotNo) : Bool := (lampOf (s.slot n).disp).lit (s.cadence.val % 10)

/-- Word 100h + `k`: the cadence codes of slots 4k to 4k + 3, one in each lane (R175). -/
def State.lampCadenceWord (s : State) (k : Fin 32) : Word32 :=
  let code (i : Nat) : BitVec 8 := (lampOf (s.slot (Fin.ofNat 128 (4 * k.val + i))).disp).code
  ofLanes (code 0) (code 1) (code 2) (code 3)

/-- The bits of a word below bit `m`, bit i set where `f i` holds. -/
def packBits (f : Nat → Bool) : Nat → Word32
  | 0 => 0
  | m + 1 => packBits f m ||| (if f m then BitVec.ofNat 32 (2 ^ m) else 0)

/-- Word 120h + `k`: slot 32k + i at bit i, 1 for lit (R176). -/
def State.lampLitWord (s : State) (k : Fin 4) : Word32 :=
  packBits (fun i => s.lampLit (Fin.ofNat 128 (32 * k.val + i))) 32

/-- The four bell cadences (R177). -/
inductive Bell where
  | alarm
  | recall
  | ring
  | night
  deriving DecidableEq, Repr

/-- A bell cadence is on at bell phase `psi`, 0 to 39 (R177). -/
def Bell.on (b : Bell) (psi : Nat) : Bool :=
  match b with
  | .alarm => decide (psi % 2 = 0)
  | .recall => decide (psi ≤ 4) || (decide (10 ≤ psi) && decide (psi ≤ 14))
  | .ring => decide (psi ≤ 9)
  | .night => decide (psi ≤ 19)

/-- Some eligible slot is RECALL (R67). -/
def State.recallWaits (s : State) : Bool := s.eligibleList.any fun e => decide ((s.slot e.slot).disp = .recall)

/-- Some eligible slot's group has at least the night bell level as its class (R67). -/
def State.nightCallWaits (s : State) : Bool :=
  s.eligibleList.any fun e => decide (s.settings.nightBell ≤ s.classOf e.slot)

/-- Some slot is PRESENTED with its break-in mark clear (R178). -/
def State.rings (s : State) : Bool :=
  allSlots.any fun n => decide ((s.slot n).disp = .presented) && !(s.slot n).breakIn

/-- The source of each bell cadence is active (R178). -/
def State.bellSource (s : State) (b : Bell) : Bool :=
  match b with
  | .alarm => decide (s.actual = .lapsed)
  | .recall => decide (s.actual = .day) && s.recallWaits
  | .ring => decide (s.actual = .day) && s.rings
  | .night => decide (s.actual = .night) && s.nightCallWaits

/-- The first active source in the order ALARM, RECALL, RING, NIGHT (R179). -/
def State.soundingBell (s : State) : Option Bell :=
  if s.bellSource .alarm then some .alarm
  else if s.bellSource .recall then some .recall
  else if s.bellSource .ring then some .ring
  else if s.bellSource .night then some .night
  else none

/-- The BELL output is on (R179, R180). -/
def State.bellOutput (s : State) : Bool :=
  decide (s.seq = .run) && s.settings.bellOn &&
    match s.soundingBell with
    | some b => b.on s.cadence.val
    | none => false

/-- ATTN_N is asserted: some latched cause is in the enable set (R183). -/
def State.attnAsserted (s : State) : Bool := decide (s.latched &&& s.settings.attnEnable ≠ 0)

/-- The NIGHT output is asserted (R127). -/
def State.nightOutput (s : State) : Bool := decide (s.seq ≠ .run) || decide (s.actual ≠ .day)

/-- A C-side transaction waits with ready held off: for RUN (R132) or for owed issues (R167). -/
def State.busBusy (s : State) : Bool := s.held.isSome || !s.bus.isEmpty

end Sys2Proof.Machine
end

