-- ==== Sys2Proof/Machine/Operands.lean ====
section
/-! DEFINITION. From a command's operands to the bus, and from a window offset to the word it names: the window map
and the word classes of R130, the write rights of R131, the setting words, and the transaction each command row puts
on the C-side. -/

namespace Sys2Proof.Machine

/-- The setting words (R141). -/
inductive SettingWord where
  | mode
  | supervision
  | present
  | missLimit
  | wrapGuard
  | nightBell
  | bellEnable
  | attnEnable
  | groupFirst (g : GroupNo)
  | groupSecond (g : GroupNo)
  deriving DecidableEq, Repr

/-- The words of the window, by the window map (R130, chapter 13). -/
inductive Place where
  | setting (w : SettingWord)
  | heartbeat
  | restart
  | setupPlain
  | modeStatus
  | attention
  | queueSummary
  | callClock
  | faultHead
  | faultOffset
  | faultValue
  | statusPlain
  | rank (k : Fin 32)
  | counterFirst (g : GroupNo)
  | counterSecond (g : GroupNo)
  | control (p : PosNo)
  | status (p : PosNo)
  | stackView (p : PosNo) (k : Fin 4)
  | blockPlain (p : PosNo)
  | view (p : PosNo) (i : Fin 8)
  | lampCadence (k : Fin 32)
  | lampLit (k : Fin 4)
  | openPlain
  | action (n : SlotNo)
  | line (n : SlotNo)
  | disposition (n : SlotNo)
  | timing (n : SlotNo)
  | destination (n : SlotNo)
  | caller (n : SlotNo)
  deriving DecidableEq, Repr

/-- The word of the setup area at offset `o`, 000h to 00Fh. -/
def setupPlace (o : Nat) : Place :=
  match o with
  | 0x0 => .setting .mode
  | 0x1 => .heartbeat
  | 0x2 => .setting .supervision
  | 0x3 => .setting .present
  | 0x4 => .setting .missLimit
  | 0x5 => .setting .wrapGuard
  | 0x6 => .setting .nightBell
  | 0x7 => .setting .bellEnable
  | 0x8 => .setting .attnEnable
  | 0x9 => .restart
  | _ => .setupPlain

/-- The word of the status area at offset 010h + `o`. -/
def statusPlace (o : Nat) : Place :=
  match o with
  | 0x0 => .modeStatus
  | 0x1 => .attention
  | 0x2 => .queueSummary
  | 0x3 => .callClock
  | 0x4 => .faultHead
  | 0x5 => .faultOffset
  | 0x6 => .faultValue
  | _ => .statusPlain

/-- Word `i` of position block `p`. -/
def blockPlace (p : PosNo) (i : Nat) : Place :=
  if i = 0 then .control p
  else if i = 1 then .status p
  else if i < 6 then .stackView p (Fin.ofNat 4 (i - 2))
  else if i < 8 then .blockPlain p
  else .view p (Fin.ofNat 8 (i - 8))

/-- Word `i` of the record of slot `n`. -/
def slotPlace (n : SlotNo) (i : Nat) : Place :=
  match i with
  | 0 => .action n
  | 1 => .line n
  | 2 => .disposition n
  | 3 => .timing n
  | 4 => .destination n
  | _ => .caller n

/-- The word a window offset names (R130). -/
def placeOf (off : Offset) : Place :=
  let o := off.toNat
  if o < 0x010 then setupPlace o
  else if o < 0x020 then statusPlace (o - 0x010)
  else if o < 0x040 then .rank (Fin.ofNat 32 (o - 0x020))
  else if o < 0x080 then
    (if o % 2 = 0 then .setting (.groupFirst (Fin.ofNat 32 ((o - 0x040) / 2)))
      else .setting (.groupSecond (Fin.ofNat 32 ((o - 0x040) / 2))))
  else if o < 0x0C0 then
    (if o % 2 = 0 then .counterFirst (Fin.ofNat 32 ((o - 0x080) / 2))
      else .counterSecond (Fin.ofNat 32 ((o - 0x080) / 2)))
  else if o < 0x100 then blockPlace (Fin.ofNat 4 ((o - 0x0C0) / 16)) ((o - 0x0C0) % 16)
  else if o < 0x120 then .lampCadence (Fin.ofNat 32 (o - 0x100))
  else if o < 0x124 then .lampLit (Fin.ofNat 4 (o - 0x120))
  else if o < 0x400 then .openPlain
  else slotPlace (Fin.ofNat 128 ((o - 0x400) / 8)) ((o - 0x400) % 8)

/-- Window offset of word `i` of the record of slot `n` (R1). -/
def slotOffset (n : SlotNo) (i : Nat) : Offset := BitVec.ofNat 11 (0x400 + 8 * n.val + i)

/-- Window offset of word `i` of position block `p` (R130). -/
def blockOffset (p : PosNo) (i : Nat) : Offset := BitVec.ofNat 11 (0x0C0 + 16 * p.val + i)

/-- Window offset of a setting word (R141). -/
def settingOffset : SettingWord → Offset
  | .mode => 0x000
  | .supervision => 0x002
  | .present => 0x003
  | .missLimit => 0x004
  | .wrapGuard => 0x005
  | .nightBell => 0x006
  | .bellEnable => 0x007
  | .attnEnable => 0x008
  | .groupFirst g => BitVec.ofNat 11 (0x040 + 2 * g.val)
  | .groupSecond g => BitVec.ofNat 11 (0x041 + 2 * g.val)

/-- The setting word the sweep reads as its `k`-th, in ascending offset (R192). -/
def sweepSetting (k : Fin 72) : SettingWord :=
  match k.val with
  | 0 => .mode
  | 1 => .supervision
  | 2 => .present
  | 3 => .missLimit
  | 4 => .wrapGuard
  | 5 => .nightBell
  | 6 => .bellEnable
  | 7 => .attnEnable
  | j => if j % 2 = 0 then .groupFirst (Fin.ofNat 32 ((j - 8) / 2)) else .groupSecond (Fin.ofNat 32 ((j - 8) / 2))

/-- The requester code a requester drives on the C-side: 0 CONSOLE, 1 LINK, 2 MAINT, 3 OTHER (R201). -/
def busCode : Requester → BitVec 2
  | .console => 0
  | .link => 1
  | .maint => 2
  | .other => 3

/-- The requester a bus code names (R201). -/
def requesterOfCode (code : BitVec 2) : Requester :=
  match code.toNat with
  | 0 => .console
  | 1 => .link
  | 2 => .maint
  | _ => .other

/-- The requester of a transaction, read from its requester code (R201). -/
def requesterOf (t : Txn) : Requester := requesterOfCode t.code

/-- The requester holds the console processor's rights: CONSOLE and MAINT (R131). -/
def actsForConsole : Requester → Bool
  | .console => true
  | .maint => true
  | _ => false

/-- The requester holds the link controller's rights: LINK and MAINT (R131). -/
def actsForLink : Requester → Bool
  | .link => true
  | .maint => true
  | _ => false

/-- The right to write a word (R131). A view word is one of a position with no current slot, and takes the rights of
the block's plain words (R161). -/
def mayWrite (pl : Place) (r : Requester) : Bool :=
  match pl with
  | .setting _ => actsForConsole r
  | .heartbeat => actsForConsole r
  | .restart => actsForConsole r
  | .setupPlain => actsForConsole r
  | .attention => actsForConsole r
  | .statusPlain => actsForConsole r
  | .counterFirst _ => actsForConsole r
  | .counterSecond _ => actsForConsole r
  | .control _ => actsForConsole r
  | .blockPlain _ => actsForConsole r
  | .view _ _ => actsForConsole r
  | .action _ => actsForConsole r
  | .destination _ => actsForConsole r
  | .line _ => actsForLink r
  | .caller _ => actsForLink r
  | .openPlain => decide (r ≠ .other)
  | .modeStatus => false
  | .queueSummary => false
  | .callClock => false
  | .faultHead => false
  | .faultOffset => false
  | .faultValue => false
  | .rank _ => false
  | .status _ => false
  | .stackView _ _ => false
  | .lampCadence _ => false
  | .lampLit _ => false
  | .disposition _ => false
  | .timing _ => false

/-- A posted part-owned word (R130, R163), the ATTENTION word among them. -/
def Place.isPosted : Place → Bool
  | .disposition _ => true
  | .status _ => true
  | .modeStatus => true
  | .attention => true
  | .faultHead => true
  | .faultOffset => true
  | .faultValue => true
  | _ => false

/-- The command words that must be written whole (R136): ACTION, LINE, CONTROL, HEARTBEAT and RESTART. -/
def Place.isCommand : Place → Bool
  | .action _ => true
  | .line _ => true
  | .control _ => true
  | .heartbeat => true
  | .restart => true
  | _ => false

/-- The window offsets of the 137 posted words, ascending (R163). -/
def postedOffsets : List Offset :=
  [0x010, 0x011, 0x014, 0x015, 0x016, 0x0C1, 0x0D1, 0x0E1, 0x0F1] ++ allSlots.map fun n => slotOffset n 2

/-- The bus address of a window offset under the straps in force (R129). -/
def State.addr (s : State) (off : Offset) : BusAddr := windowAddr s.straps.wbase off

/-- The window offset a command path addresses: word `i` of the slot's record, or view word 8 + `i` (R157). -/
def pathOffset (path : CallPath) (i : Nat) : Offset :=
  match path with
  | .slot n => slotOffset n i
  | .view p => blockOffset p (8 + i)

/-- A write on the C-side at a window offset. -/
def State.writeTxn (s : State) (r : Requester) (off : Offset) (lanes : Lanes) (data : Word32) (lock : Bool) : Txn :=
  { code := busCode r, addr := s.addr off, write := true, lanes := lanes, data := data, lock := lock }

/-- A full-word LINE write (R15): `upper` is lanes 1 to 3 and `code` the event code in lane 0 (R198). -/
def State.lineTxn (s : State) (r : Requester) (path : CallPath) (code : BitVec 8) (upper : BitVec 24) (lock : Bool) :
    Txn :=
  s.writeTxn r (pathOffset path 1) fullLanes (upper ++ code) lock

/-- A full-word ACTION write (R29): `upper` is lanes 1 to 3 and `code` the action code in lane 0 (R198). -/
def State.actionTxn (s : State) (r : Requester) (path : CallPath) (code : BitVec 8) (upper : BitVec 24) (lock : Bool) :
    Txn :=
  s.writeTxn r (pathOffset path 0) fullLanes (upper ++ code) lock

/-- A full-word CONTROL write (R77): `upper` is lanes 1 to 3 and `code` the command in lane 0 (R198). -/
def State.controlTxn (s : State) (r : Requester) (p : PosNo) (code : BitVec 8) (upper : BitVec 24) (lock : Bool) : Txn :=
  s.writeTxn r (blockOffset p 0) fullLanes (upper ++ code) lock

/-- A MODE write with lane 0 enabled (R117): `value` is the mode value in bits 1:0 (R200). -/
def State.modeTxn (s : State) (r : Requester) (upperLanes : BitVec 3) (rest : BitVec 30) (value : BitVec 2)
    (lock : Bool) : Txn :=
  s.writeTxn r 0x000 (upperLanes ++ 1#1) (rest ++ value) lock

/-- A read on the C-side. -/
def readTxn (r : Requester) (addr : BusAddr) (lanes : Lanes) (lock : Bool) : Txn :=
  { code := busCode r, addr := addr, write := false, lanes := lanes, data := 0, lock := lock }

end Sys2Proof.Machine
end

