-- ==== Sys2Proof/Machine/Shadows.lean ====
section
/-! DEFINITION. The setting shadows as words (R200), and the clamp and commit of a setting word (R140, R141). -/

namespace Sys2Proof.Machine

/-- The word the shadow of setting `w` makes, bits of no field being 0 (R140, R200). -/
def Settings.word (t : Settings) (w : SettingWord) : Word32 :=
  match w with
  | .mode => 0#30 ++ serviceCode t.mode
  | .supervision => 0#24 ++ t.supervision
  | .present => 0#24 ++ t.present
  | .missLimit => 0#29 ++ t.missLimit
  | .wrapGuard => 0#24 ++ t.wrapGuard
  | .nightBell => 0#29 ++ t.nightBell
  | .bellEnable => 0#31 ++ BitVec.ofBool t.bellOn
  | .attnEnable => causesWord t.attnEnable
  | .groupFirst g => groupFirstWord t.groups[g]
  | .groupSecond g => groupSecondWord t.groups[g]

/-- A field above `hi` becomes `hi` (R141). -/
def clampHigh (hi v : BitVec 8) : BitVec 8 := if hi < v then hi else v

/-- A field of 0 becomes 1 (R141). -/
def clampZero {w : Nat} (v : BitVec w) : BitVec w := if v = 0 then 1 else v

/-- The PRESENT time, 5 to 60 (R141). -/
def clampPresent (v : BitVec 8) : BitVec 8 := if v < 5 then 5 else clampHigh 60 v

/-- The first word of a route group, clamped (R141). -/
def GroupSettings.withFirst (g : GroupSettings) (v : Word32) : GroupSettings :=
  { g with
    cls := v.extractLsb' 0 3, grain := clampHigh 63 (v.extractLsb' 8 8), step := clampZero (v.extractLsb' 16 4)
    limit := clampZero (v.extractLsb' 24 3) }

/-- The second word of a route group, which has nothing to clamp (R141). -/
def GroupSettings.withSecond (g : GroupSettings) (v : Word32) : GroupSettings :=
  { g with hold := v.extractLsb' 0 8, transfer := v.extractLsb' 8 8, camp := v.extractLsb' 16 8 }

/-- The shadows once setting `w` has taken the clamp of `v`; an undefined MODE value is taken as `requested`
(R141). -/
def Settings.commit (t : Settings) (w : SettingWord) (v : Word32) (requested : Service) : Settings :=
  match w with
  | .mode => { t with mode := match serviceOfCode (v.extractLsb' 0 2) with
                               | some m => m
                               | none => requested }
  | .supervision => { t with supervision := clampHigh 4 (v.extractLsb' 0 8) }
  | .present => { t with present := clampPresent (v.extractLsb' 0 8) }
  | .missLimit => { t with missLimit := v.extractLsb' 0 3 }
  | .wrapGuard => { t with wrapGuard := clampHigh 15 (v.extractLsb' 0 8) }
  | .nightBell => { t with nightBell := clampZero (v.extractLsb' 0 3) }
  | .bellEnable => { t with bellOn := v.getLsbD 0 }
  | .attnEnable => { t with attnEnable := v.extractLsb' 0 8 }
  | .groupFirst g => { t with groups := t.groups.set g (t.groups[g].withFirst v) }
  | .groupSecond g => { t with groups := t.groups.set g (t.groups[g].withSecond v) }

end Sys2Proof.Machine
end

