-- ==== Sys2Proof/Machine/Overlay.lean ====
section
/-! DEFINITION. Read overlays and the current-call view (chapter 8): the value the part gives for each word it owns, and
the word a window offset reaches. -/

namespace Sys2Proof.Machine

/-- The queue summary (R69). -/
def State.queueSummary (s : State) : Word32 :=
  match s.bestCandidate with
  | some e => summaryWord s.answerList.length s.eligibleList.length (some e.slot) e.score
  | none => summaryWord s.answerList.length s.eligibleList.length none 0

/-- Rank view word `k` (R68). -/
def State.rankViewWord (s : State) (k : Nat) : Word32 :=
  rankWord (((rankOrder s.answerList)[k]?).map fun e => (e.slot, e.score, (s.slot e.slot).disp))

/-- The owner's current value of an overlaid word (R149); none for a word that is not overlaid. -/
def State.overlay (s : State) (pl : Place) : Option Word32 :=
  match pl with
  | .disposition n => some (dispositionWord (s.slot n))
  | .timing n => some (timingWord (s.slot n).elapsed (remainingAt s.callTicks (s.slot n).deadline) (s.keptScore n))
  | .status p => some (statusWord (s.pos p) (s.currentSlot p) (s.readyPlace p))
  | .stackView p k => some (stackWord ((s.pos p).stack[k.val]?))
  | .modeStatus => some (modeStatusWord s.actual s.requested s.nightPending s.resetCause s.seq)
  | .attention => some (causesWord s.latched)
  | .queueSummary => some s.queueSummary
  | .callClock => some (callClockWord s.callTicks s.cadence.val)
  | .faultHead => some (faultHeadWord s.fault s.overflow)
  | .faultOffset => some (faultOffsetWord s.fault)
  | .faultValue => some (faultValueWord s.fault)
  | .rank k => some (s.rankViewWord k.val)
  | .counterFirst g => some (countsWord (s.counts g).offered (s.counts g).answered)
  | .counterSecond g => some (countsWord (s.counts g).abandoned (s.counts g).recalled)
  | .lampCadence k => some (s.lampCadenceWord k)
  | .lampLit k => some (s.lampLitWord k)
  | .setting _ => none
  | .heartbeat => none
  | .restart => none
  | .setupPlain => none
  | .statusPlain => none
  | .control _ => none
  | .blockPlain _ => none
  | .view _ _ => none
  | .openPlain => none
  | .action _ => none
  | .line _ => none
  | .destination _ => none
  | .caller _ => none

/-- The value of a posted word as a read would return it (R163). -/
def State.postedValue (s : State) (off : Offset) : Word32 :=
  match s.overlay (placeOf off) with
  | some v => v
  | none => 0

/-- A word reached by a window transaction: its offset, what it is, and the position whose view redirected it. -/
structure Reached where
  offset : Offset
  place  : Place
  via    : Option PosNo
  deriving DecidableEq, Repr

/-- The word a window offset reaches now (R157): a view word stands for the same word of the current slot's record, and
for itself while the position has no current slot (R161). -/
def State.reach (s : State) (off : Offset) : Reached :=
  match placeOf off with
  | .view p i =>
    match s.currentSlot p with
    | some n => { offset := slotOffset n i.val, place := slotPlace n i.val, via := some p }
    | none => { offset := off, place := .view p i, via := none }
  | pl => { offset := off, place := pl, via := none }

/-- The data of a read completed now at bus address `a` (R133, R150): the overlay of the window word it is settled on,
or memory's. -/
def State.readData (s : State) (a : BusAddr) (off : Option Offset) : Word32 :=
  match off with
  | none => s.mem.readWord a
  | some o =>
    match s.overlay (placeOf o) with
    | some v => v
    | none => s.mem.readWord a

end Sys2Proof.Machine
end

