-- ==== Sys2Proof/Machine/Posting.lean ====
section
/-! DEFINITION. The Posting Queue and the S-side (chapter 9): how the changes of an event join the queue, posts, owed
issues, and the lock state of locked sequences. -/

namespace Sys2Proof.Machine

/-- The window offset whose post is held back by an open locked sequence (R169). -/
def State.lockedOffset (s : State) : Option Offset := s.lock.map Lock.offset

/-- The oldest entry that may issue, and the queue without it (R165, R169). -/
def takeOldest (locked : Option Offset) : List Post → Option (Post × List Post)
  | [] => none
  | e :: rest =>
    if locked = some e.offset then
      match takeOldest locked rest with
      | some (o, left) => some (o, e :: left)
      | none => none
    else some (e, rest)

/-- A word that has no entry joins as the youngest; a full queue first gives up its oldest entry that may issue as an
owed issue (R164, R167). -/
def State.joinPosts (s : State) (e : Post) : State :=
  if s.posts.length < Config.postingDepth then { s with posts := s.posts ++ [e] }
  else
    match takeOldest s.lockedOffset s.posts with
    | some (o, rest) => { s with posts := rest ++ [e], owed := s.owed ++ [o] }
    | none => { s with posts := s.posts ++ [e] }

/-- The entries with the value of each word that is given again replaced in place (R164). -/
def replaceValues (given : List Post) (queue : List Post) : List Post :=
  queue.map fun e =>
    match given.find? fun g => decide (g.offset = e.offset) with
    | some g => g
    | none => e

/-- The queue is given the words an event changed, in ascending offset (R164, R171): words that have an entry first
replace its value in place, then the others join. DESIGN CHOICE (log entry 7) for a full queue. -/
def State.givePosts (s : State) (given : List Post) : State :=
  let fresh := given.filter fun g => s.posts.all fun e => decide (e.offset ≠ g.offset)
  fresh.foldl State.joinPosts { s with posts := replaceValues given s.posts }

/-- Any entry of the word at `off` leaves the queue, its value written by the C-side write itself (R170). -/
def State.dropPost (s : State) (off : Offset) : State :=
  { s with posts := s.posts.filter fun e => decide (e.offset ≠ off) }

/-- The offsets of the three FAULT record words (R155). -/
def faultOffsets : List Offset := [0x014, 0x015, 0x016]

/-- The posted word at `off` is given to the queue at the end of an event: its value differs before and after (R163),
or it is one of the three FAULT words and the record was filled or cleared (R155, R186, R187). DESIGN CHOICE (log entry
27) for a FAULT word that reads the same before and after a fill or a clearing. -/
def givesPost (before after : State) (off : Offset) : Bool :=
  decide (before.postedValue off ≠ after.postedValue off)
    || (decide (before.fault ≠ after.fault) && faultOffsets.contains off)

/-- The posted words an event gives the queue, in ascending offset, with the value each has after it (R163, R164). -/
def changedPosts (before after : State) : List Post :=
  (postedOffsets.filter (givesPost before after)).map fun off => ⟨off, after.postedValue off⟩

/-- The end of an event in RUN that began at `before` (R6, step 4): its changed posted words are given to the queue. -/
def State.posting (s before : State) : State := s.givePosts (changedPosts before s)

/-- The end of an event whose own C-side write carries the posted word at `off` (R137, R144, R170): its entry is
removed and the event's change of it needs none. DESIGN CHOICE (log entry 8) for a full queue. -/
def State.postingExcept (s before : State) (off : Offset) : State :=
  (s.dropPost off).givePosts ((changedPosts before s).filter fun g => decide (g.offset ≠ off))

/-- The lock state after a window transaction that reaches the word at `off` (R168). -/
def lockAfter (lock : Option Lock) (t : Txn) (off : Offset) : Option Lock :=
  if !t.write && t.lock then some ⟨requesterOf t, off⟩
  else
    match lock with
    | none => none
    | some l =>
      if t.lock then (if l.requester = requesterOf t && decide (l.offset = off) then none else some l)
      else (if l.offset = off then some l else none)

/-- A write the part makes on the S-side of a window word, on all four lanes (R165, R190). -/
def State.putWord (s : State) (off : Offset) (v : Word32) : State :=
  { s with mem := s.mem.writeWord (s.addr off) fullLanes v }

/-- A free S-side turn for the Posting Queue (R165, R166): in RUN, with no owed issue and no C-side transaction waiting
for its access, its oldest entry that may issue is written. -/
def State.issuePost (s : State) : State :=
  if s.seq = .run && s.owed.isEmpty && s.held.isNone then
    match takeOldest s.lockedOffset s.posts with
    | some (e, rest) => { s with posts := rest }.putWord e.offset e.value
    | none => s
  else s

end Sys2Proof.Machine
end

