-- ==== Sys2Proof/Machine/Traffic.lean ====
section
/-! DEFINITION. The Traffic Unit (chapter 7): one C-side transaction from its arrival to its completion, by the order of
R147. -/

namespace Sys2Proof.Machine

/-- What a window write does once it is taken: the state the owners leave, the transaction's own S-side access, and the
posted word that access carries itself, if any (R144, R170). -/
structure WriteEffect where
  state    : State
  access   : Access
  carries  : Option Offset
  deriving DecidableEq, Repr

/-- The write of `data` at the word reached, on all four lanes. -/
def State.fullWrite (s : State) (r : Reached) (data : Word32) : Access := .write (s.addr r.offset) fullLanes data

/-- A stray write (R144, R145, R188): the fault is raised first; a posted word is then written with the part's value,
and nothing is written for any other word. -/
def State.strayEffect (s : State) (t : Txn) (r : Reached) : WriteEffect :=
  let faulted := s.raiseFault ⟨.strayWrite, some (requesterOf t), r.offset, recordedValue t.lanes t.data⟩
  if r.place.isPosted then ⟨faulted, faulted.fullWrite r (faulted.postedValue r.offset), some r.offset⟩
  else ⟨faulted, .nothing, none⟩

/-- A command write with fewer than four lanes (R136). -/
def State.partialEffect (s : State) (t : Txn) (r : Reached) : WriteEffect :=
  ⟨s.raiseFault ⟨.partialCommand, some (requesterOf t), r.offset, recordedValue t.lanes t.data⟩,
    .write (s.addr r.offset) t.lanes t.data, none⟩

/-- An acknowledgement (R137, R184). -/
def State.acknowledgeEffect (s : State) (t : Txn) (r : Reached) : WriteEffect :=
  let acked := s.acknowledge (namedCauses t.lanes t.data)
  ⟨acked, acked.fullWrite r (acked.postedValue r.offset), some r.offset⟩

/-- A write that reaches memory as issued (R146). -/
def State.plainEffect (s : State) (t : Txn) (r : Reached) : WriteEffect :=
  ⟨s, .write (s.addr r.offset) t.lanes t.data, none⟩

/-- The word a command write puts in memory: as written, with the result in lane 3 (R134, R198). -/
def State.commandEffect (s : State) (r : Reached) (v : Verdict) (data : Word32) : WriteEffect :=
  ⟨v.state, s.fullWrite r (setLane3 data v.result.code), none⟩

/-- The word of an ACTION write as it is judged: through a view, the view's position number replaces the position field
(R160). -/
def judgedAction (via : Option PosNo) (data : Word32) : Word32 :=
  match via with
  | some p => setLane1 data (BitVec.ofNat 8 p.val)
  | none => data

/-- A full-word ACTION write to slot `n` (R29, R160). -/
def State.actionEffect (s : State) (t : Txn) (r : Reached) (n : SlotNo) : WriteEffect :=
  let data := judgedAction r.via t.data
  s.commandEffect r (s.actionEvent n (laneOf data 0) (laneOf data 1)) data

/-- A full-word LINE write to slot `n` (R15): a refusal raises LINE_REFUSED (R16). -/
def State.lineEffect (s : State) (t : Txn) (r : Reached) (n : SlotNo) : WriteEffect :=
  let v := s.lineEvent n (laneOf t.data 0) (groupOfField (t.data.extractLsb' 8 5))
  let judged :=
    if v.result = .taken then v
    else ⟨s.raiseFault ⟨.lineRefused, some (requesterOf t), r.offset, t.data⟩, v.result⟩
  s.commandEffect r judged t.data

/-- A full-word CONTROL write to position block `p` (R77). -/
def State.controlEffect (s : State) (t : Txn) (r : Reached) (p : PosNo) : WriteEffect :=
  s.commandEffect r (s.controlEvent p (laneOf t.data 0)) t.data

/-- A full-word HEARTBEAT write (R138). -/
def State.heartbeatEffect (s : State) (t : Txn) (r : Reached) : WriteEffect :=
  s.commandEffect r ⟨s.takeHeartbeat, .taken⟩ t.data

/-- A full-word RESTART write (R139): any value but the RESTART value is a plain write. -/
def State.restartEffect (s : State) (t : Txn) (r : Reached) : WriteEffect :=
  if t.data = Config.restartValue then ⟨s, .restart (s.addr r.offset) t.data, none⟩ else s.plainEffect t r

/-- A setting write (R140): merged with the shadow, clamped, shadowed and written on all lanes; the MODE word is then
acted on by the Mode Unit (R117). -/
def State.settingEffect (s : State) (t : Txn) (r : Reached) (w : SettingWord) : WriteEffect :=
  let committed := s.settings.commit w (mergeLanes t.lanes t.data (s.settings.word w)) s.requested
  let shadowed := { s with settings := committed }
  let acted := match w with
    | .mode => shadowed.takeMode committed.mode
    | _ => shadowed
  ⟨acted, s.fullWrite r (committed.word w), none⟩

/-- A counter preset (R72): `word` is the merged word, its low half for the first count and its high half for the
second. -/
def State.presetEffect (s : State) (r : Reached) (g : GroupNo) (c : Counters) (word : Word32) : WriteEffect :=
  ⟨s.setCounts g c, s.fullWrite r word, none⟩

/-- The preset of the offered and answered counts of group `g` (R72). -/
def State.presetFirst (s : State) (t : Txn) (r : Reached) (g : GroupNo) : WriteEffect :=
  let word := mergeLanes t.lanes t.data (countsWord (s.counts g).offered (s.counts g).answered)
  s.presetEffect r g { s.counts g with offered := word.extractLsb' 0 16, answered := word.extractLsb' 16 16 } word

/-- The preset of the abandoned and recalled counts of group `g` (R72). -/
def State.presetSecond (s : State) (t : Txn) (r : Reached) (g : GroupNo) : WriteEffect :=
  let word := mergeLanes t.lanes t.data (countsWord (s.counts g).abandoned (s.counts g).recalled)
  s.presetEffect r g { s.counts g with abandoned := word.extractLsb' 0 16, recalled := word.extractLsb' 16 16 } word

/-- A write to a view word of a position with no current slot (R161): a full-word one to view word 8 gets
REFUSED_NO_CALL. -/
def State.viewEffect (s : State) (t : Txn) (r : Reached) (i : Fin 8) : WriteEffect :=
  if i = 0 && decide (t.lanes = fullLanes) then ⟨s, s.fullWrite r (setLane3 t.data Result.refusedNoCall.code), none⟩
  else s.plainEffect t r

/-- A window write with the right, by the word reached (R147, steps 5 to 11). -/
def State.rightfulEffect (s : State) (t : Txn) (r : Reached) : WriteEffect :=
  if r.place.isCommand && decide (t.lanes ≠ fullLanes) then s.partialEffect t r
  else
    match r.place with
    | .attention => s.acknowledgeEffect t r
    | .action n => s.actionEffect t r n
    | .line n => s.lineEffect t r n
    | .control p => s.controlEffect t r p
    | .heartbeat => s.heartbeatEffect t r
    | .restart => s.restartEffect t r
    | .setting w => s.settingEffect t r w
    | .counterFirst g => s.presetFirst t r g
    | .counterSecond g => s.presetSecond t r g
    | .view _ i => s.viewEffect t r i
    | _ => s.plainEffect t r

/-- A window write once it is taken (R147, step 4 onward). -/
def State.writeEffect (s : State) (t : Txn) (r : Reached) : WriteEffect :=
  if mayWrite r.place (requesterOf t) then s.rightfulEffect t r else s.strayEffect t r

/-- A transaction's own S-side access is made and the transaction completes (R134, R144, R150, R139). -/
def State.perform (s : State) (a : Access) : State :=
  match a with
  | .nothing => { s with reply := none }
  | .write addr lanes data => { s with mem := s.mem.writeWord addr lanes data, reply := none }
  | .restart addr data => { s with mem := s.mem.writeWord addr fullLanes data }.resetBlocks .restart .sweep
  | .read addr off => { s with reply := some (s.readData addr off) }

/-- The access of transaction `t`, which was taken with `owedBefore` already owed: it is made at once when no owed issue
stands in its way, and is held until they are written otherwise (R166, R167). -/
def State.complete (s : State) (t : Txn) (owedBefore : List Post) (a : Access) : State :=
  if s.owed.isEmpty || (decide (a = .nothing) && decide (s.owed = owedBefore)) then s.perform a
  else { s with held := some ⟨t, a, s.owed.length⟩ }

/-- The end of a window write's event: the lock state it leaves (R168), its posts (R6), then its own access. -/
def State.finishWrite (before : State) (t : Txn) (lock : Option Lock) (e : WriteEffect) : State :=
  let owners := { e.state with lock := lock }
  let posted := match e.carries with
    | some off => owners.postingExcept before off
    | none => owners.posting before
  posted.complete t before.owed e.access

/-- A window transaction is taken in RUN (R147, step 3 onward); its change of the lock state comes before its posts
(R168, R169), and no owner's part in it depends on that state. -/
def State.takeWindow (s : State) (t : Txn) (off : Offset) : State :=
  let r := s.reach off
  let lock := lockAfter s.lock t r.offset
  if t.write then s.finishWrite t lock (s.writeEffect t r)
  else { s with lock := lock }.complete t s.owed (.read (s.addr r.offset) (some r.offset))

/-- The own access of a transaction outside the window (R129). -/
def outsideAccess (t : Txn) : Access := if t.write then .write t.addr t.lanes t.data else .read t.addr none

/-- A transaction on the free bus (R147, steps 1 and 2): outside the window it passes untouched, inside it waits for
RUN. -/
def State.take (s : State) (t : Txn) : State :=
  match windowOffset s.straps.wbase t.addr with
  | none => s.complete t s.owed (outsideAccess t)
  | some off => if s.seq = .run then s.takeWindow t off else { s with bus := [t] }

/-- A transaction is issued on the C-side: behind one that waits, it waits to be issued in its turn (R132). -/
def State.arrive (s : State) (t : Txn) : State := if s.busBusy then { s with bus := s.bus ++ [t] } else s.take t

/-- The bus is free again: the transactions issued meanwhile are taken in order until one waits (R132). -/
def State.resumeBus (s : State) : State := s.bus.foldl State.arrive { s with bus := [] }

/-- The wait of `h` ends with the owed issue now written, after which `left` are still owed (R167): an access of its own
follows every owed issue (R166), and a transaction with none waits for those of its own event alone. -/
def Held.ends (h : Held) (left : List Post) : Bool :=
  left.isEmpty || (decide (h.access = .nothing) && decide (h.behind ≤ 1))

/-- An S-side turn for the oldest owed issue (R166, R167). When the wait of the held transaction ends with it, that
transaction makes its own access in the same step, and the bus is free. DEDUCED (log entry 11). -/
def State.issueOwed (s : State) : State :=
  match s.owed with
  | [] => s
  | e :: rest =>
    let written := { s with owed := rest }.putWord e.offset e.value
    match s.held with
    | none => written
    | some h =>
      if h.ends rest then ({ written with held := none }.perform h.access).resumeBus
      else { written with held := some { h with behind := h.behind - 1 } }

/-- A reset from outside (R189): the blocks are reset, and a transaction that waited, for RUN or for an owed issue, is
waiting still and is taken afresh (R132). DESIGN CHOICE (log entry 14): the WBASE just sampled decides whether it lies
inside the window. Where the window has moved off it, it passes at the reset as outside traffic (R129, R190). -/
def State.resetFromPin (s : State) (cause : ResetCause) (phase : Seq) : State :=
  let waiting := match s.held with
    | some h => h.txn :: s.bus
    | none => s.bus
  { s with held := none, bus := waiting }.resetBlocks cause phase |>.resumeBus

end Sys2Proof.Machine
end

