-- ==== Sys2Proof/Machine/ActionCommands.lean ====
section
/-! DEFINITION. The meanings of the attendant action rows: each is the full-word ACTION write that carries its action
code (R29, R198), taken by the Traffic Unit. -/

namespace Sys2Proof.Machine

/-- ANSWER (R32 to R36). -/
def execAnswer (r : Requester) (path : CallPath) (upper : BitVec 24) (lock : Bool) (s : State) :
    Host.Outcome State Fault Refusal :=
  .next (s.arrive (s.actionTxn r path 1 upper lock))

/-- HOLD (R37, R38). -/
def execHold (r : Requester) (path : CallPath) (upper : BitVec 24) (lock : Bool) (s : State) :
    Host.Outcome State Fault Refusal :=
  .next (s.arrive (s.actionTxn r path 2 upper lock))

/-- SWAP (R39). -/
def execSwap (r : Requester) (path : CallPath) (upper : BitVec 24) (lock : Bool) (s : State) :
    Host.Outcome State Fault Refusal :=
  .next (s.arrive (s.actionTxn r path 3 upper lock))

/-- EXTEND (R40). -/
def execExtend (r : Requester) (path : CallPath) (upper : BitVec 24) (lock : Bool) (s : State) :
    Host.Outcome State Fault Refusal :=
  .next (s.arrive (s.actionTxn r path 4 upper lock))

/-- RELEASE (R41, R42). -/
def execRelease (r : Requester) (path : CallPath) (upper : BitVec 24) (lock : Bool) (s : State) :
    Host.Outcome State Fault Refusal :=
  .next (s.arrive (s.actionTxn r path 5 upper lock))

/-- UNKNOWN_ACTION_CODE (R30). -/
def execUnknownActionCode (r : Requester) (path : CallPath) (data : Word32) (lock : Bool) (s : State) :
    Host.Outcome State Fault Refusal :=
  .next (s.arrive (s.writeTxn r (pathOffset path 0) fullLanes data lock))

/-- VIEW_ACTION_NO_CALL (R161): a full-word write to view word 8 of position `p`. -/
def execViewActionNoCall (r : Requester) (p : PosNo) (data : Word32) (lock : Bool) (s : State) :
    Host.Outcome State Fault Refusal :=
  .next (s.arrive (s.writeTxn r (blockOffset p 8) fullLanes data lock))

end Sys2Proof.Machine
end

