-- ==== Sys2Proof/Machine/Expiries.lean ====
section
/-! DEFINITION. Ticks and expiries at their owners (R10, R59, R89 to R94, R106, R123). An event is due from the call tick
that finds it until the next one. One that is not due does not happen, and one that no command takes in that time is
taken by the model just before the next tick (log entry 5). -/

namespace Sys2Proof.Machine

/-- The second tick at the Answer Queue (R59). -/
def State.queueSecond (s : State) : State :=
  if s.seq = .run && s.secondAtQueue then
    (({ s with secondAtQueue := false }.ageListed).rescore.arbitrate).posting s
  else s

/-- The second tick at the Slot Controller (R10); it posts nothing. -/
def State.slotSecond (s : State) : State :=
  if s.seq = .run && s.secondAtSlots then
    { s with secondAtSlots := false, slots := mapVec Slot.aged s.slots }
  else s

/-- The deadline of slot `n`, in disposition `d`, is found expired in RUN (R106). -/
def State.slotExpires (s : State) (n : SlotNo) (d : Disp) : Bool :=
  decide (s.seq = .run) && decide ((s.slot n).disp = d) && s.expired (s.slot n).deadline

/-- A recall expiry of slot `n` in disposition `d`: the recall transition (R9, R12, R115). -/
def State.recallExpiry (s : State) (n : SlotNo) (d : Disp) : State :=
  if s.slotExpires n d then ((s.recallSlot n).arbitrate).posting s else s

/-- The miss limit closes position `p` at this miss (R90, step 3). -/
def State.missCloses (s : State) (p : PosNo) : Bool :=
  decide (s.settings.missLimit ≠ 0) && decide (s.settings.missLimit ≤ (s.pos p).misses)

/-- The miss of a presentation expiry at the PRESENTING position `p` (R90). -/
def State.missAt (s : State) (p : PosNo) : State :=
  let w := s.withdraw p
  let missed := (w.setPos p { w.pos p with misses := satInc (w.pos p).misses }).latch causeMiss
  if missed.missCloses p then (missed.becomeClosed p).latch causeAutoclose else missed.becomeReady p

/-- A presentation expiry of slot `n` at a PRESENTING position (R89, R90). -/
def State.presentationExpires (s : State) (n : SlotNo) : State :=
  match (s.slot n).position with
  | some p =>
    if s.slotExpires n .presented && decide ((s.pos p).state = .presenting) then
      ((s.missAt p).arbitrate).posting s
    else s
  | none => s

/-- The expiry of a break-in offer of slot `n` at an ENGAGED position (R89, R91). -/
def State.offerExpires (s : State) (n : SlotNo) : State :=
  match (s.slot n).position with
  | some p =>
    if s.slotExpires n .presented && s.isEngaged p then ((s.withdraw p).arbitrate).posting s else s
  | none => s

/-- The wrap-up expiry of position `p` (R94). -/
def State.wrapUpExpires (s : State) (p : PosNo) : State :=
  if s.seq = .run && decide ((s.pos p).state = .wrapup) && s.expired (s.pos p).wrapDeadline then
    ((s.becomeReady p).arbitrate).posting s
  else s

/-- The supervision expiry, taken only in DAY (R123). -/
def State.supervisionExpires (s : State) : State :=
  if s.seq = .run && decide (s.actual = .day) && s.expired s.supervision then s.lapse.posting s else s

/-- The expiry of the deadline of slot `n`, whichever its disposition makes it (R9). -/
def State.slotDue (s : State) (n : SlotNo) : State :=
  match (s.slot n).disp with
  | .presented => (s.presentationExpires n).offerExpires n
  | .held => s.recallExpiry n .held
  | .extended => s.recallExpiry n .extended
  | .camped => s.recallExpiry n .camped
  | _ => s

/-- Every event the last call tick found and no command has taken (R106, R108): the expiries of the slots and of the
positions in ascending number, that of supervision, then the second tick at its two owners. DESIGN CHOICE (log entry 5):
the order. -/
def State.takeDue (s : State) : State :=
  ((allPositions.foldl State.wrapUpExpires (allSlots.foldl State.slotDue s)).supervisionExpires.queueSecond).slotSecond

/-- A call tick (R101, R106): the events of the tick before it have all been taken when the counters step, so that each
expiry is taken at the count that finds it. -/
def State.callTick (s : State) : State := s.takeDue.tick

/-- One cycle of CLKREF (R99): the prescaler counts it, and the cycle that takes it from the top back to 0 makes a
call tick. -/
def State.clkref (s : State) : State :=
  if s.prescaler + 1 < prescalerDivisor s.straps.refsel then { s with prescaler := s.prescaler + 1 } else s.callTick

end Sys2Proof.Machine
end

