-- ==== Sys2Proof/Machine/ClockCommands.lean ====
section
/-! DEFINITION. The meanings of the tick and expiry rows (chapter 5). -/

namespace Sys2Proof.Machine

/-- CALL_TICK (R101, R106): the prescaler's wrap, whatever it has counted so far (log entry 4). -/
def execCallTick (s : State) : Host.Outcome State Fault Refusal := .next s.callTick

/-- SECOND_TICK (R59). -/
def execSecondTick (s : State) : Host.Outcome State Fault Refusal := .next s.queueSecond

/-- SLOT_SECOND_TICK (R10). -/
def execSlotSecondTick (s : State) : Host.Outcome State Fault Refusal := .next s.slotSecond

/-- PRESENTATION_EXPIRY (R90). -/
def execPresentationExpiry (n : SlotNo) (s : State) : Host.Outcome State Fault Refusal :=
  .next (s.presentationExpires n)

/-- BREAK_IN_OFFER_EXPIRY (R91). -/
def execBreakInOfferExpiry (n : SlotNo) (s : State) : Host.Outcome State Fault Refusal := .next (s.offerExpires n)

/-- HOLD_RECALL_EXPIRY (R9). -/
def execHoldRecallExpiry (n : SlotNo) (s : State) : Host.Outcome State Fault Refusal := .next (s.recallExpiry n .held)

/-- TRANSFER_RECALL_EXPIRY (R9). -/
def execTransferRecallExpiry (n : SlotNo) (s : State) : Host.Outcome State Fault Refusal :=
  .next (s.recallExpiry n .extended)

/-- CAMP_RECALL_EXPIRY (R9). -/
def execCampRecallExpiry (n : SlotNo) (s : State) : Host.Outcome State Fault Refusal := .next (s.recallExpiry n .camped)

/-- WRAP_UP_EXPIRY (R94). -/
def execWrapUpExpiry (p : PosNo) (s : State) : Host.Outcome State Fault Refusal := .next (s.wrapUpExpires p)

/-- SUPERVISION_EXPIRY (R123). -/
def execSupervisionExpiry (s : State) : Host.Outcome State Fault Refusal := .next s.supervisionExpires

end Sys2Proof.Machine
end

