-- ==== Sys2Proof/Machine/ConsoleCommands.lean ====
section
/-! DEFINITION. The meanings of the position control, mode, heartbeat and acknowledgement rows: each is the write that
carries the command, taken by the Traffic Unit. -/

namespace Sys2Proof.Machine

/-- OPEN (R78). -/
def execOpenPosition (r : Requester) (p : PosNo) (upper : BitVec 24) (lock : Bool) (s : State) :
    Host.Outcome State Fault Refusal :=
  .next (s.arrive (s.controlTxn r p 1 upper lock))

/-- CLOSE (R79 to R81). -/
def execClosePosition (r : Requester) (p : PosNo) (upper : BitVec 24) (lock : Bool) (s : State) :
    Host.Outcome State Fault Refusal :=
  .next (s.arrive (s.controlTxn r p 2 upper lock))

/-- UNKNOWN_CONTROL_COMMAND (R77). -/
def execUnknownControlCommand (r : Requester) (p : PosNo) (data : Word32) (lock : Bool) (s : State) :
    Host.Outcome State Fault Refusal :=
  .next (s.arrive (s.writeTxn r (blockOffset p 0) fullLanes data lock))

/-- HEARTBEAT (R122, R125, R138). -/
def execHeartbeat (r : Requester) (data : Word32) (lock : Bool) (s : State) : Host.Outcome State Fault Refusal :=
  .next (s.arrive (s.writeTxn r 0x001 fullLanes data lock))

/-- NIGHT_REQUEST: a MODE write of NIGHT (R117 to R119). -/
def execNightRequest (r : Requester) (upperLanes : BitVec 3) (rest : BitVec 30) (lock : Bool) (s : State) :
    Host.Outcome State Fault Refusal :=
  .next (s.arrive (s.modeTxn r upperLanes rest (serviceCode .night) lock))

/-- DAY_REQUEST: a MODE write of DAY (R117, R120). -/
def execDayRequest (r : Requester) (upperLanes : BitVec 3) (rest : BitVec 30) (lock : Bool) (s : State) :
    Host.Outcome State Fault Refusal :=
  .next (s.arrive (s.modeTxn r upperLanes rest (serviceCode .day) lock))

/-- ACKNOWLEDGEMENT (R137, R184). -/
def execAcknowledgement (r : Requester) (lanes : Lanes) (data : Word32) (lock : Bool) (s : State) :
    Host.Outcome State Fault Refusal :=
  .next (s.arrive (s.writeTxn r 0x011 lanes data lock))

end Sys2Proof.Machine
end

