-- ==== Sys2Proof/Machine/LineCommands.lean ====
section
/-! DEFINITION. The meanings of the line event rows: each is the full-word LINE write that carries its event code
(R15, R198), taken by the Traffic Unit. -/

namespace Sys2Proof.Machine

/-- OFFER (R17, R18). -/
def execOffer (r : Requester) (path : CallPath) (upper : BitVec 24) (lock : Bool) (s : State) :
    Host.Outcome State Fault Refusal :=
  .next (s.arrive (s.lineTxn r path 1 upper lock))

/-- ABANDON (R19 to R23). -/
def execAbandon (r : Requester) (path : CallPath) (upper : BitVec 24) (lock : Bool) (s : State) :
    Host.Outcome State Fault Refusal :=
  .next (s.arrive (s.lineTxn r path 2 upper lock))

/-- EXT_ANSWER (R24). -/
def execExtAnswer (r : Requester) (path : CallPath) (upper : BitVec 24) (lock : Bool) (s : State) :
    Host.Outcome State Fault Refusal :=
  .next (s.arrive (s.lineTxn r path 3 upper lock))

/-- EXT_BUSY (R25). -/
def execExtBusy (r : Requester) (path : CallPath) (upper : BitVec 24) (lock : Bool) (s : State) :
    Host.Outcome State Fault Refusal :=
  .next (s.arrive (s.lineTxn r path 4 upper lock))

/-- EXT_FREE (R26). -/
def execExtFree (r : Requester) (path : CallPath) (upper : BitVec 24) (lock : Bool) (s : State) :
    Host.Outcome State Fault Refusal :=
  .next (s.arrive (s.lineTxn r path 5 upper lock))

/-- EXT_FAIL (R27). -/
def execExtFail (r : Requester) (path : CallPath) (upper : BitVec 24) (lock : Bool) (s : State) :
    Host.Outcome State Fault Refusal :=
  .next (s.arrive (s.lineTxn r path 6 upper lock))

/-- UNKNOWN_EVENT_CODE (R28). -/
def execUnknownEventCode (r : Requester) (path : CallPath) (data : Word32) (lock : Bool) (s : State) :
    Host.Outcome State Fault Refusal :=
  .next (s.arrive (s.writeTxn r (pathOffset path 1) fullLanes data lock))

end Sys2Proof.Machine
end

