-- ==== Sys2Proof/Machine/StartUp.lean ====
section
/-! DEFINITION. The Start-Up Sequencer (chapter 12): the fill, the adoption sweep and entry to RUN. An access that is
not the sequencer's next one is not made (log entry 5). -/

namespace Sys2Proof.Machine

/-- The opening write (R190). -/
def State.openingStep (s : State) : State :=
  if s.stage = .opening then
    { s.putWord 0x010 (modeStatusWord .day .day false s.resetCause s.seq) with
      stage := if s.seq = .fill then .filling 0 else .settings 0 }
  else s

/-- One DISPOSITION word of the fill (R191). -/
def State.fillStep (s : State) : State :=
  match s.stage with
  | .filling n =>
    { s.putWord (slotOffset n 2) (dispositionWord Slot.empty) with
      stage := if n = 127 then .closing else .filling (n + 1) }
  | _ => s

/-- One setting word of the sweep (R192): read, clamped into its shadow, and written back when the clamp changed it. -/
def State.sweepSettingStep (s : State) : State :=
  match s.stage with
  | .settings k =>
    let w := sweepSetting k
    let found := s.mem.readWord (s.addr (settingOffset w))
    let shadows := s.settings.commit w found s.requested
    let taken := { s with
      settings := shadows
      requested := if w = .mode then shadows.mode else s.requested
      stage := if k = 71 then .adopting 0 else .settings (k + 1) }
    if shadows.word w = found then taken else taken.putWord (settingOffset w) (shadows.word w)
  | _ => s

/-- A slot adopted away from the positions with the fields it keeps: it needs a home (R193). -/
def adoptedAway (d : Disp) (group : GroupNo) (home : Option PosNo) (recalls : BitVec 3) (final : Bool) : Option Slot :=
  if home.isSome then
    some { Slot.empty with
      disp := d, group := group, position := home, home := home, recalls := recalls, final := final }
  else none

/-- The adoption table (R193): the slot adopted from the fields found, none when the word is discarded. -/
def adoptedFields (d : Disp) (group : GroupNo) (home : Option PosNo) (kind : Option ReturnKind) (recalls : BitVec 3)
    (final : Bool) : Option Slot :=
  match d with
  | .free => some Slot.empty
  | .queued => some (Slot.offered group)
  | .presented =>
    match kind with
    | some .queued => some (Slot.offered group)
    | some .recall => adoptedAway .recall group home recalls final
    | none => none
  | .recall => adoptedAway .recall group home recalls final
  | .talking => adoptedAway .held group home recalls final
  | .split => adoptedAway .held group home recalls final
  | .held => adoptedAway .held group home recalls final
  | .extended => adoptedAway .extended group home recalls final
  | .camped => adoptedAway .camped group home recalls final

/-- The slot adopted from a DISPOSITION word, none when the word is discarded: an undefined code in any field, or a home
missing where the adopted disposition needs one (R193, R197). Bits 31:28 are ignored. -/
def adoptedSlot (w : Word32) : Option Slot :=
  match dispOfCode (w.extractLsb' 0 4), posOfField (w.extractLsb' 4 4), posOfField (w.extractLsb' 8 4),
    returnKindOfField (w.extractLsb' 26 2) with
  | some d, some _, some home, some kind =>
    if classFieldDefined (w.extractLsb' 12 4) then
      adoptedFields d (groupOfField (w.extractLsb' 16 5)) home kind (w.extractLsb' 21 3) (w.getLsbD 24)
    else none
  | _, _, _, _ => none

/-- One slot of the sweep (R193, R194): adopted or discarded, listed when it waits, and written back when its word has
changed. -/
def State.adoptStep (s : State) : State :=
  match s.stage with
  | .adopting n =>
    let found := s.mem.readWord (s.addr (slotOffset n 2))
    let judged := match adoptedSlot found with
      | some sl => s.setSlot n sl
      | none => (s.setSlot n Slot.empty).raiseFault ⟨.sweepDiscard, none, slotOffset n 2, found⟩
    let listed := if (judged.slot n).disp.isWaiting then judged.join n else judged
    let word := dispositionWord (listed.slot n)
    let written := if word = found then listed else listed.putWord (slotOffset n 2) word
    { written with stage := if n = 127 then .closing else .adopting (n + 1) }
  | _ => s

/-- The actual mode of a requested one (R116). -/
def modeOfService : Service → Mode
  | .day => .day
  | .night => .night

/-- The closing writes (R195), in their order: STATUS of the four positions, the FAULT record, ATTENTION with STARTED
added, and the MODE status word as RUN will have it. -/
def State.closingStep (s : State) : State :=
  if s.stage = .closing then
    let statuses := allPositions.foldl
      (fun (t : State) p => t.putWord (blockOffset p 1) (statusWord Position.empty none 0)) s
    let faults := ((statuses.putWord 0x014 (faultHeadWord s.fault s.overflow)).putWord 0x015
      (faultOffsetWord s.fault)).putWord 0x016 (faultValueWord s.fault)
    let attention := faults.putWord 0x011 (causesWord (s.latched ||| causeStarted))
    { attention.putWord 0x010 (modeStatusWord (modeOfService s.requested) s.requested false s.resetCause .run) with
      stage := .entering }
  else s

/-- The deadline a slot is given at entry to RUN: the recall timer of its adopted disposition (R102, R195). -/
def State.armAdopted (s : State) (sl : Slot) : Slot :=
  match sl.disp with
  | .held => { sl with deadline := s.arm (s.group sl.group).hold }
  | .extended => { sl with deadline := s.arm (s.group sl.group).transfer }
  | .camped => { sl with deadline := s.arm (s.group sl.group).camp }
  | _ => sl

/-- Entry to RUN (R195): adopted timers are armed, STARTED latches, the mode is the requested one, and in DAY
supervision is armed. Nothing is posted. -/
def State.enterRun (s : State) : State :=
  let running := { s with
    seq := .run
    stage := .running
    slots := mapVec s.armAdopted s.slots
    latched := s.latched ||| causeStarted
    actual := modeOfService s.requested }
  let supervised := match s.requested with
    | .day => running.armSupervision
    | .night => running
  supervised.arbitrate

/-- The sequencer's entry to RUN, after which the waiting window transaction is taken (R132, R195). -/
def State.entryStep (s : State) : State := if s.stage = .entering then s.enterRun.resumeBus else s

end Sys2Proof.Machine
end

