-- ==== Sys2Proof/Machine/ResetCommands.lean ====
section
/-! DEFINITION. The meanings of the resets and of the sequencer's accesses (chapter 12). -/

namespace Sys2Proof.Machine

/-- POWER_ON_RESET (R189): what the SRAM holds as power comes up is the command's operand (log entry 3). -/
def execPowerOnReset (pins : Straps) (sram : List Host.Cell) (s : State) : Host.Outcome State Fault Refusal :=
  .next ({ s with pins := pins, mem := Memory.ofCells sram }.resetFromPin .power .fill)

/-- RESET_N asserted (R189). -/
def execResetN (pins : Straps) (s : State) : Host.Outcome State Fault Refusal :=
  .next ({ s with pins := pins }.resetFromPin .pin .sweep)

/-- RESTART (R139): a full-word write of the RESTART value to 009h. -/
def execRestart (r : Requester) (lock : Bool) (pins : Straps) (s : State) : Host.Outcome State Fault Refusal :=
  .next ({ s with pins := pins }.arrive (s.writeTxn r 0x009 fullLanes Config.restartValue lock))

/-- OPENING_WRITE (R190). -/
def execOpeningWrite (s : State) : Host.Outcome State Fault Refusal := .next s.openingStep

/-- FILL (R191). -/
def execFill (s : State) : Host.Outcome State Fault Refusal := .next s.fillStep

/-- SWEEP_SETTING_READ (R192). -/
def execSweepSettingRead (s : State) : Host.Outcome State Fault Refusal := .next s.sweepSettingStep

/-- ADOPTION (R193, R194). -/
def execAdoption (s : State) : Host.Outcome State Fault Refusal := .next s.adoptStep

/-- CLOSING_WRITES (R195). -/
def execClosingWrites (s : State) : Host.Outcome State Fault Refusal := .next s.closingStep

/-- ENTRY_TO_RUN (R195). -/
def execEntryToRun (s : State) : Host.Outcome State Fault Refusal := .next s.entryStep

end Sys2Proof.Machine
end

