-- ==== Sys2Proof/Machine/TrafficCommands.lean ====
section
/-! DEFINITION. The meanings of the setting, counter, stray, partial and plain write rows, of the two read rows, and of
the S-side turns of the Posting Queue (chapters 7 to 9). -/

namespace Sys2Proof.Machine

/-- SETTING_WRITE (R140). -/
def execSettingWrite (r : Requester) (off : Offset) (lanes : Lanes) (data : Word32) (lock : Bool) (s : State) :
    Host.Outcome State Fault Refusal :=
  .next (s.arrive (s.writeTxn r off lanes data lock))

/-- COUNTER_PRESET (R72). -/
def execCounterPreset (r : Requester) (off : Offset) (lanes : Lanes) (data : Word32) (lock : Bool) (s : State) :
    Host.Outcome State Fault Refusal :=
  .next (s.arrive (s.writeTxn r off lanes data lock))

/-- STRAY_WRITE (R144, R145). -/
def execStrayWrite (r : Requester) (off : Offset) (lanes : Lanes) (data : Word32) (lock : Bool) (s : State) :
    Host.Outcome State Fault Refusal :=
  .next (s.arrive (s.writeTxn r off lanes data lock))

/-- PARTIAL_COMMAND (R136). -/
def execPartialCommand (r : Requester) (off : Offset) (lanes : Lanes) (data : Word32) (lock : Bool) (s : State) :
    Host.Outcome State Fault Refusal :=
  .next (s.arrive (s.writeTxn r off lanes data lock))

/-- PLAIN_WRITE (R146), and any write outside the window (R129). -/
def execPlainWrite (r : Requester) (addr : BusAddr) (lanes : Lanes) (data : Word32) (lock : Bool) (s : State) :
    Host.Outcome State Fault Refusal :=
  .next (s.arrive { code := busCode r, addr := addr, write := true, lanes := lanes, data := data, lock := lock })

/-- LOCKED_READ (R133, R168). -/
def execLockedRead (r : Requester) (addr : BusAddr) (lanes : Lanes) (s : State) : Host.Outcome State Fault Refusal :=
  .next (s.arrive (readTxn r addr lanes true))

/-- READ_WITHOUT_LOCK (R133, R168). -/
def execReadWithoutLock (r : Requester) (addr : BusAddr) (lanes : Lanes) (s : State) :
    Host.Outcome State Fault Refusal :=
  .next (s.arrive (readTxn r addr lanes false))

/-- POST (R165). -/
def execPost (s : State) : Host.Outcome State Fault Refusal := .next s.issuePost

/-- OWED_ISSUE (R167). -/
def execOwedIssue (s : State) : Host.Outcome State Fault Refusal := .next s.issueOwed

end Sys2Proof.Machine
end

