-- ==== Sys2Proof/Machine/Dispatch.lean ====
section
/-! DEFINITION. The dispatch of the commands: one arm per constructor of Instr, each one direct call of its meaning. -/

namespace Sys2Proof.Machine

/-- The effect of a command on everything but the queue of commands. -/
def exec (i : Instr) (s : State) : Host.Outcome State Fault Refusal :=
  match i with
  | .powerOnReset pins sram => Sys2Proof.Machine.execPowerOnReset pins sram s
  | .resetN pins => Sys2Proof.Machine.execResetN pins s
  | .restart r lock pins => Sys2Proof.Machine.execRestart r lock pins s
  | .openingWrite => Sys2Proof.Machine.execOpeningWrite s
  | .fill => Sys2Proof.Machine.execFill s
  | .sweepSettingRead => Sys2Proof.Machine.execSweepSettingRead s
  | .adoption => Sys2Proof.Machine.execAdoption s
  | .closingWrites => Sys2Proof.Machine.execClosingWrites s
  | .entryToRun => Sys2Proof.Machine.execEntryToRun s
  | .offer r path upper lock => Sys2Proof.Machine.execOffer r path upper lock s
  | .abandon r path upper lock => Sys2Proof.Machine.execAbandon r path upper lock s
  | .extAnswer r path upper lock => Sys2Proof.Machine.execExtAnswer r path upper lock s
  | .extBusy r path upper lock => Sys2Proof.Machine.execExtBusy r path upper lock s
  | .extFree r path upper lock => Sys2Proof.Machine.execExtFree r path upper lock s
  | .extFail r path upper lock => Sys2Proof.Machine.execExtFail r path upper lock s
  | .unknownEventCode r path data lock => Sys2Proof.Machine.execUnknownEventCode r path data lock s
  | .answer r path upper lock => Sys2Proof.Machine.execAnswer r path upper lock s
  | .hold r path upper lock => Sys2Proof.Machine.execHold r path upper lock s
  | .swap r path upper lock => Sys2Proof.Machine.execSwap r path upper lock s
  | .extend r path upper lock => Sys2Proof.Machine.execExtend r path upper lock s
  | .release r path upper lock => Sys2Proof.Machine.execRelease r path upper lock s
  | .unknownActionCode r path data lock => Sys2Proof.Machine.execUnknownActionCode r path data lock s
  | .viewActionNoCall r p data lock => Sys2Proof.Machine.execViewActionNoCall r p data lock s
  | .openPosition r p upper lock => Sys2Proof.Machine.execOpenPosition r p upper lock s
  | .closePosition r p upper lock => Sys2Proof.Machine.execClosePosition r p upper lock s
  | .unknownControlCommand r p data lock => Sys2Proof.Machine.execUnknownControlCommand r p data lock s
  | .heartbeat r data lock => Sys2Proof.Machine.execHeartbeat r data lock s
  | .nightRequest r upperLanes rest lock => Sys2Proof.Machine.execNightRequest r upperLanes rest lock s
  | .dayRequest r upperLanes rest lock => Sys2Proof.Machine.execDayRequest r upperLanes rest lock s
  | .acknowledgement r lanes data lock => Sys2Proof.Machine.execAcknowledgement r lanes data lock s
  | .settingWrite r off lanes data lock => Sys2Proof.Machine.execSettingWrite r off lanes data lock s
  | .counterPreset r off lanes data lock => Sys2Proof.Machine.execCounterPreset r off lanes data lock s
  | .strayWrite r off lanes data lock => Sys2Proof.Machine.execStrayWrite r off lanes data lock s
  | .partialCommand r off lanes data lock => Sys2Proof.Machine.execPartialCommand r off lanes data lock s
  | .plainWrite r addr lanes data lock => Sys2Proof.Machine.execPlainWrite r addr lanes data lock s
  | .lockedRead r addr lanes => Sys2Proof.Machine.execLockedRead r addr lanes s
  | .callTick => Sys2Proof.Machine.execCallTick s
  | .secondTick => Sys2Proof.Machine.execSecondTick s
  | .slotSecondTick => Sys2Proof.Machine.execSlotSecondTick s
  | .presentationExpiry n => Sys2Proof.Machine.execPresentationExpiry n s
  | .breakInOfferExpiry n => Sys2Proof.Machine.execBreakInOfferExpiry n s
  | .holdRecallExpiry n => Sys2Proof.Machine.execHoldRecallExpiry n s
  | .transferRecallExpiry n => Sys2Proof.Machine.execTransferRecallExpiry n s
  | .campRecallExpiry n => Sys2Proof.Machine.execCampRecallExpiry n s
  | .wrapUpExpiry p => Sys2Proof.Machine.execWrapUpExpiry p s
  | .supervisionExpiry => Sys2Proof.Machine.execSupervisionExpiry s
  | .post => Sys2Proof.Machine.execPost s
  | .owedIssue => Sys2Proof.Machine.execOwedIssue s
  | .readWithoutLock r addr lanes => Sys2Proof.Machine.execReadWithoutLock r addr lanes s

end Sys2Proof.Machine
end

