-- ==== Sys2Proof/Safety.lean ====
section
/-! DEFINITION. The terms the statements use: one predicate for each invariant the rules give, the transaction each bus
row puts on the C-side, and what an event or a transaction leaves of the Posting Queue and of the call store. -/

namespace Sys2Proof.Safety

open Sys2Proof.Machine

/-- Every shadow field is within its range (R141). -/
def SettingsInRange (t : Settings) : Prop :=
  t.supervision ≤ 4 ∧ 5 ≤ t.present ∧ t.present ≤ 60 ∧ t.wrapGuard ≤ 15 ∧ t.nightBell ≠ 0 ∧
    ∀ g : GroupNo, t.groups[g].grain ≤ 63 ∧ t.groups[g].step ≠ 0 ∧ t.groups[g].limit ≠ 0

/-- The value of a setting word, by the fields R200 gives it: every bit of no field is 0. -/
def settingValue (t : Settings) : SettingWord → Nat
  | .mode => if t.mode = .day then 1 else 2
  | .supervision => t.supervision.toNat
  | .present => t.present.toNat
  | .missLimit => t.missLimit.toNat
  | .wrapGuard => t.wrapGuard.toNat
  | .nightBell => t.nightBell.toNat
  | .bellEnable => if t.bellOn then 1 else 0
  | .attnEnable => t.attnEnable.toNat
  | .groupFirst g => t.groups[g].cls.toNat + 2 ^ 8 * t.groups[g].grain.toNat + 2 ^ 16 * t.groups[g].step.toNat +
      2 ^ 24 * t.groups[g].limit.toNat
  | .groupSecond g => t.groups[g].hold.toNat + 2 ^ 8 * t.groups[g].transfer.toNat + 2 ^ 16 * t.groups[g].camp.toNat

/-- The shadows `u` are the shadows `t` but for the fields of setting word `w` (R140, R200): of a route group, the other
word's fields stay as well. -/
def OnlySettingChanged (w : SettingWord) (t u : Settings) : Prop :=
  match w with
  | .mode => u = { t with mode := u.mode }
  | .supervision => u = { t with supervision := u.supervision }
  | .present => u = { t with present := u.present }
  | .missLimit => u = { t with missLimit := u.missLimit }
  | .wrapGuard => u = { t with wrapGuard := u.wrapGuard }
  | .nightBell => u = { t with nightBell := u.nightBell }
  | .bellEnable => u = { t with bellOn := u.bellOn }
  | .attnEnable => u = { t with attnEnable := u.attnEnable }
  | .groupFirst g => u = { t with groups := u.groups } ∧ (∀ h : GroupNo, h ≠ g → u.groups[h] = t.groups[h]) ∧
      u.groups[g] = { u.groups[g] with
        hold := t.groups[g].hold, transfer := t.groups[g].transfer, camp := t.groups[g].camp }
  | .groupSecond g => u = { t with groups := u.groups } ∧ (∀ h : GroupNo, h ≠ g → u.groups[h] = t.groups[h]) ∧
      u.groups[g] = { u.groups[g] with
        cls := t.groups[g].cls, grain := t.groups[g].grain, step := t.groups[g].step, limit := t.groups[g].limit }

/-- The fault record is valid exactly when FAULT is latched, and the overflow count is 0 while it is not valid (R186). -/
def FaultRecordAgrees (s : State) : Prop :=
  (s.fault.isSome ↔ s.latched &&& causeFault = causeFault) ∧ (s.fault = none → s.overflow = 0)

/-- The Posting Queue holds at most 16 entries, at most one for any word, and only posted words (R164, R167). -/
def PostingBounded (s : State) : Prop :=
  s.posts.length ≤ Config.postingDepth ∧ (s.posts.map Post.offset).Nodup ∧
    ∀ e ∈ s.posts, (placeOf e.offset).isPosted = true

/-- The ready list holds exactly the READY positions, each once (R82). -/
def ReadyListExact (s : State) : Prop :=
  s.readyList.Nodup ∧ ∀ p : PosNo, p ∈ s.readyList ↔ (s.pos p).state = .ready

/-- While calls may be presented and some position is READY, no slot of the answer list is eligible (R86). -/
def NoneWaitsAtReady (s : State) : Prop :=
  s.presentsCalls = true → (∃ p : PosNo, (s.pos p).state = .ready) → s.eligibleList = []

/-- The optional fields and marks a slot record may hold in its disposition (R1, R3, R4, R7). -/
def SlotFieldsFit (sl : Slot) : Prop :=
  (sl.disp = .free → sl = Slot.empty) ∧
  (sl.deadline.isSome → sl.disp = .presented ∨ sl.disp = .held ∨ sl.disp = .extended ∨ sl.disp = .camped) ∧
  (sl.returnKind.isSome ↔ sl.disp = .presented) ∧
  (sl.breakIn = true → sl.disp = .presented) ∧
  (sl.savedClass.isSome → sl.disp = .talking ∨ sl.disp = .split)

/-- The fields a position record may hold in its state (R45, R74, R75). -/
def PositionFieldsFit (q : Position) : Prop :=
  (q.state ≠ .engaged → q.talking = none ∧ q.threshold = none ∧ q.stack = [] ∧ q.closePending = false) ∧
  (q.state ≠ .engaged → q.state ≠ .presenting → q.presented = none) ∧
  (q.state ≠ .wrapup → q.wrapDeadline = none) ∧
  q.stack.length ≤ Config.stackDepth

/-- Every slot and position record fits its disposition or state. -/
def RecordsFit (s : State) : Prop :=
  (∀ n : SlotNo, SlotFieldsFit (s.slot n)) ∧ ∀ p : PosNo, PositionFieldsFit (s.pos p)

/-- A slot is in the answer list exactly when its disposition is listed, and then once (R53). -/
def ListFollows (s : State) : Prop :=
  (s.answerList.map Listed.slot).Nodup ∧
    ∀ n : SlotNo, n ∈ s.answerList.map Listed.slot ↔ (s.slot n).disp.isListed = true

/-- The slot and position records name each other (R45, R76). -/
def CallsAgree (s : State) : Prop :=
  (∀ (n : SlotNo) (p : PosNo), ((s.slot n).disp = .talking ∧ (s.slot n).position = some p) ↔
    ((s.pos p).state = .engaged ∧ (s.pos p).talking = some n)) ∧
  (∀ (n : SlotNo) (p : PosNo), ((s.slot n).disp = .presented ∧ (s.slot n).position = some p) ↔
    (s.pos p).presented = some n) ∧
  (∀ (n : SlotNo) (p : PosNo), ((s.slot n).disp = .split ∧ (s.slot n).position = some p) ↔
    n ∈ (s.pos p).stack.map StackEntry.slot) ∧
  (∀ p : PosNo, ((s.pos p).stack.map StackEntry.slot).Nodup) ∧
  ∀ n : SlotNo, ((s.slot n).disp = .talking ∨ (s.slot n).disp = .presented ∨ (s.slot n).disp = .split) →
    (s.slot n).position.isSome

/-- What the start-up sequence keeps until RUN (R2, R53, R74, R172, R191 to R195): the positions at their reset values,
nothing posted, owed or held, and no slot in use that the sweep has not adopted. -/
def StartUpAgrees (s : State) : Prop :=
  (s.seq = .run ↔ s.stage = .running) ∧
  (s.seq ≠ .run → s.readyList = [] ∧ (∀ p : PosNo, s.pos p = Position.empty) ∧ s.posts = [] ∧ s.owed = [] ∧
    s.held = none ∧ s.nightPending = false) ∧
  (match s.stage with
    | .opening => s.answerList = [] ∧ ∀ n : SlotNo, s.slot n = Slot.empty
    | .filling _ => s.answerList = [] ∧ ∀ n : SlotNo, s.slot n = Slot.empty
    | .settings _ => s.answerList = [] ∧ ∀ n : SlotNo, s.slot n = Slot.empty
    | .adopting n => ∀ m : SlotNo, n ≤ m → s.slot m = Slot.empty
    | _ => True)

/-- An ENGAGED position talks to a call at a threshold, and a PRESENTING one presents a call (R74, R75). -/
def PositionsStaffed (s : State) : Prop :=
  ∀ p : PosNo, ((s.pos p).state = .engaged → (s.pos p).talking.isSome ∧ (s.pos p).threshold.isSome) ∧
    ((s.pos p).state = .presenting → (s.pos p).presented.isSome)

/-- The position and home a slot record holds in its disposition (R3). -/
def HomeFits (sl : Slot) : Prop :=
  (sl.disp = .queued → sl.position = none ∧ sl.home = none) ∧
  (sl.disp = .presented → (sl.returnKind = some .queued → sl.home = none) ∧
    (sl.returnKind = some .recall → sl.home.isSome)) ∧
  (sl.disp = .talking ∨ sl.disp = .split ∨ sl.disp = .held ∨ sl.disp = .extended ∨ sl.disp = .camped ∨
    sl.disp = .recall → sl.home.isSome ∧ sl.position = sl.home)

/-- The threshold of an ENGAGED position, and that of each stack entry, is the lesser of 7 and one more than the saved
class of its call (R46). -/
def ThresholdsFit (s : State) : Prop :=
  let fits (n : SlotNo) (t : Option Class) : Prop :=
    ∃ c : Class, (s.slot n).savedClass = some c ∧ t = some (if c = 7 then 7 else c + 1)
  ∀ p : PosNo, (∀ n : SlotNo, (s.pos p).state = .engaged → (s.pos p).talking = some n → fits n (s.pos p).threshold) ∧
    ∀ e ∈ (s.pos p).stack, fits e.slot (some e.threshold)

/-- Positions that are not fitted stay at their reset values (R74). -/
def UnfittedAtReset (s : State) : Prop := ∀ p : PosNo, s.fitted ≤ p.val → s.pos p = Position.empty

/-- A deadline is at most 2550 call ticks ahead and never behind: one that has come is taken before the next tick
(R105 to R107). -/
def NotBehind (now : Tick) (deadline : Option Tick) : Prop := ∀ d : Tick, deadline = some d → (d - now).toNat ≤ 2550

/-- No deadline is behind the call tick count; supervision is armed in DAY alone (R123); and before RUN no deadline is
armed and no second tick waits (R102). -/
def DeadlinesFit (s : State) : Prop :=
  (∀ n : SlotNo, NotBehind s.callTicks (s.slot n).deadline) ∧
  (∀ p : PosNo, NotBehind s.callTicks (s.pos p).wrapDeadline) ∧ NotBehind s.callTicks s.supervision ∧
  (s.supervision.isSome → s.actual = .day) ∧
  (s.seq ≠ .run → (∀ n : SlotNo, (s.slot n).deadline = none) ∧ s.supervision = none ∧ s.secondAtQueue = false ∧
    s.secondAtSlots = false)

/-- Nothing that the last call tick found is left to take: no deadline is expired and no second tick waits at its owner
(R101, R106). -/
def NothingFound (s : State) : Prop :=
  (∀ n : SlotNo, s.expired (s.slot n).deadline = false) ∧ (∀ p : PosNo, s.expired (s.pos p).wrapDeadline = false) ∧
    s.expired s.supervision = false ∧ s.secondAtQueue = false ∧ s.secondAtSlots = false

/-- The records of the owners of call state agree with each other, with the straps and with the Call Clock (R1 to R5,
R45, R46, R53, R74 to R76, R82, R105 to R107). -/
def CallStateAgrees (s : State) : Prop :=
  RecordsFit s ∧ ReadyListExact s ∧ ListFollows s ∧ PositionsStaffed s ∧ CallsAgree s ∧ StartUpAgrees s ∧
    (∀ n : SlotNo, HomeFits (s.slot n)) ∧ ThresholdsFit s ∧ UnfittedAtReset s ∧ DeadlinesFit s

/-! Memory following the part (R163). -/

/-- The word memory will hold at window offset `off` once every owed issue is written. -/
def owedWord (s : State) (off : Offset) : Word32 :=
  match (s.owed.filter fun e => decide (e.offset = off)).getLast? with
  | some e => e.value
  | none => s.mem.readWord (s.addr off)

/-- The word memory will hold at `off` once the held transaction has made its own access as well. -/
def heldWord (s : State) (off : Offset) : Word32 :=
  match s.held with
  | some ⟨_, .write addr lanes data, _⟩ => if addr = s.addr off then mergeLanes lanes data (owedWord s off) else owedWord s off
  | _ => owedWord s off

/-- The word memory will hold at `off` once the Posting Queue has issued its entry for it too. -/
def settledWord (s : State) (off : Offset) : Word32 :=
  match s.posts.find? fun e => decide (e.offset = off) with
  | some e => e.value
  | none => heldWord s off

/-- The held transaction writes the word at `off`. -/
def heldWrites (s : State) (off : Offset) : Prop :=
  match s.held with
  | some ⟨_, .write addr _ _, _⟩ => addr = s.addr off
  | _ => False

/-- The word that entry to RUN makes of the posted word at `off` (R195), from the state before it. -/
def entryWord (s : State) (off : Offset) : Word32 :=
  match placeOf off with
  | .status _ => statusWord Position.empty none 0
  | .attention => causesWord (s.latched ||| causeStarted)
  | .modeStatus => modeStatusWord (modeOfService s.requested) s.requested false s.resetCause .run
  | _ => s.postedValue off

/-- In RUN every posted word is in memory, or on its way there, with its owner's value (R163); before RUN memory holds
what the sequencer has written so far (R191 to R195). -/
def MemoryFollows (s : State) : Prop :=
  match s.stage with
  | .running => ∀ off ∈ postedOffsets, settledWord s off = s.postedValue off
  | .entering => ∀ off ∈ postedOffsets, s.mem.readWord (s.addr off) = entryWord s off
  | .closing => ∀ n : SlotNo, s.mem.readWord (s.addr (slotOffset n 2)) = dispositionWord (s.slot n)
  | .filling n => ∀ m : SlotNo, m < n → s.mem.readWord (s.addr (slotOffset m 2)) = dispositionWord (s.slot m)
  | .adopting n => ∀ m : SlotNo, m < n → s.mem.readWord (s.addr (slotOffset m 2)) = dispositionWord (s.slot m)
  | _ => True

/-! What a command leaves. -/

/-- In RUN with the C-side free, so that a transaction issued now is taken at once (R132, R166), and the call store in
its canonical form. -/
def Serving (s : State) : Prop := s.seq = .run ∧ s.held = none ∧ s.bus = [] ∧ s.mem.wf = true

/-- The slot a command path reaches (R157): the slot itself, or the current slot of the view's position. -/
def PathReaches (s : State) (path : CallPath) (n : SlotNo) : Prop :=
  match path with
  | .slot m => m = n
  | .view p => s.currentSlot p = some n

/-- `t` is `q` but for the lock, the Posting Queue, the bus transaction's own access and what that access changes. -/
def OwnersAre (t q : State) : Prop :=
  t = { q with lock := t.lock, posts := t.posts, owed := t.owed, held := t.held, mem := t.mem, reply := t.reply }

/-- The event from `s` to `t` gives the posted word at `off` to the Posting Queue: it has changed its value (R163), or it
is a FAULT word and the event has filled or cleared the record (R155; log entry 27). -/
def Given (s t : State) (off : Offset) : Prop :=
  off ∈ postedOffsets ∧ (s.postedValue off ≠ t.postedValue off ∨
    (s.fault ≠ t.fault ∧ (off = 0x014 ∨ off = 0x015 ∨ off = 0x016)))

/-- What the event from `s` to `t` gives the Posting Queue (R163, R164, R167): every posted word given is queued or owed
with the value it has now, but for the word its own write carries; entries of other words stay, queued or owed; owed
issues stay in front; and there is nothing else. -/
def PostsFollow (s t : State) (carried : Option Offset) : Prop :=
  s.owed <+: t.owed ∧
  (∀ off : Offset, Given s t off → carried ≠ some off → (⟨off, t.postedValue off⟩ : Post) ∈ t.posts ++ t.owed) ∧
  (∀ e ∈ s.posts, carried ≠ some e.offset → ¬Given s t e.offset → e ∈ t.posts ++ t.owed) ∧
  (∀ e ∈ t.posts ++ t.owed, e ∈ s.posts ∨ e ∈ s.owed ∨
    (Given s t e.offset ∧ e.value = t.postedValue e.offset)) ∧
  ∀ e ∈ t.posts, carried ≠ some e.offset

/-- The write of `data` on `lanes` at `addr` by the transaction `txn` has been made, and no other byte has changed; or
it waits, with memory unchanged, because issues are owed (R134, R167). -/
def WriteLands (s t : State) (txn : Txn) (addr : BusAddr) (lanes : Lanes) (data : Word32) : Prop :=
  if t.owed = [] then
    t.held = none ∧ t.reply = none ∧ t.mem.readWord addr = mergeLanes lanes data (s.mem.readWord addr) ∧
      ∀ a : Nat, a / 4 ≠ addr.toNat → t.mem.read a = s.mem.read a
  else t.held = some ⟨txn, .write addr lanes data, t.owed.length⟩ ∧ t.mem = s.mem ∧ t.reply = s.reply

/-- A window write that reached the word at `off` has left the owners as in `q`, the lock by R168 and its posts, and has
written, or holds, `data` on `lanes` there. -/
def WriteDone (s q t : State) (txn : Txn) (off : Offset) (lanes : Lanes) (data : Word32) : Prop :=
  OwnersAre t q ∧ t.lock = lockAfter s.lock txn off ∧ PostsFollow s t none ∧ WriteLands s t txn (s.addr off) lanes data

/-- A window write whose own write carries the posted word at `off` (R170): as `WriteDone`, the word written being the
part's value of it, and no entry for it is left in the queue. -/
def CarriedDone (s q t : State) (txn : Txn) (off : Offset) : Prop :=
  OwnersAre t q ∧ t.lock = lockAfter s.lock txn off ∧ PostsFollow s t (some off) ∧
    WriteLands s t txn (s.addr off) fullLanes (t.postedValue off)

/-- An event inside the part has left the owners as in `q`, with its posts, and nothing else has changed. -/
def EventDone (s q t : State) : Prop := t = { q with posts := t.posts, owed := t.owed } ∧ PostsFollow s t none

/-- The commands run one after another, none where one of them does not answer a next state. -/
def runAll (s : State) : List Instr → Option State
  | [] => some s
  | c :: rest =>
    match exec c s with
    | .next t => runAll t rest
    | _ => none

/-- The events a call tick can find due, as commands: the expiries of each slot and position in ascending number, that
of supervision, and the second tick at its two owners (log entry 5). -/
def dueCommands : List Instr :=
  (allSlots.flatMap fun n => [.presentationExpiry n, .breakInOfferExpiry n, .holdRecallExpiry n,
    .transferRecallExpiry n, .campRecallExpiry n]) ++
  (allPositions.map .wrapUpExpiry ++ [.supervisionExpiry, .secondTick, .slotSecondTick])

/-- The transaction a bus row puts on the C-side; none for a row that is an event inside the part or a reset. -/
def busTxn (s : State) : Instr → Option Txn
  | .restart r lock _ => some (s.writeTxn r 0x009 fullLanes Config.restartValue lock)
  | .offer r path upper lock => some (s.lineTxn r path 1 upper lock)
  | .abandon r path upper lock => some (s.lineTxn r path 2 upper lock)
  | .extAnswer r path upper lock => some (s.lineTxn r path 3 upper lock)
  | .extBusy r path upper lock => some (s.lineTxn r path 4 upper lock)
  | .extFree r path upper lock => some (s.lineTxn r path 5 upper lock)
  | .extFail r path upper lock => some (s.lineTxn r path 6 upper lock)
  | .unknownEventCode r path data lock => some (s.writeTxn r (pathOffset path 1) fullLanes data lock)
  | .answer r path upper lock => some (s.actionTxn r path 1 upper lock)
  | .hold r path upper lock => some (s.actionTxn r path 2 upper lock)
  | .swap r path upper lock => some (s.actionTxn r path 3 upper lock)
  | .extend r path upper lock => some (s.actionTxn r path 4 upper lock)
  | .release r path upper lock => some (s.actionTxn r path 5 upper lock)
  | .unknownActionCode r path data lock => some (s.writeTxn r (pathOffset path 0) fullLanes data lock)
  | .viewActionNoCall r p data lock => some (s.writeTxn r (blockOffset p 8) fullLanes data lock)
  | .openPosition r p upper lock => some (s.controlTxn r p 1 upper lock)
  | .closePosition r p upper lock => some (s.controlTxn r p 2 upper lock)
  | .unknownControlCommand r p data lock => some (s.writeTxn r (blockOffset p 0) fullLanes data lock)
  | .heartbeat r data lock => some (s.writeTxn r 0x001 fullLanes data lock)
  | .nightRequest r upperLanes rest lock => some (s.modeTxn r upperLanes rest (serviceCode .night) lock)
  | .dayRequest r upperLanes rest lock => some (s.modeTxn r upperLanes rest (serviceCode .day) lock)
  | .acknowledgement r lanes data lock => some (s.writeTxn r 0x011 lanes data lock)
  | .settingWrite r off lanes data lock => some (s.writeTxn r off lanes data lock)
  | .counterPreset r off lanes data lock => some (s.writeTxn r off lanes data lock)
  | .strayWrite r off lanes data lock => some (s.writeTxn r off lanes data lock)
  | .partialCommand r off lanes data lock => some (s.writeTxn r off lanes data lock)
  | .plainWrite r addr lanes data lock =>
    some { code := busCode r, addr := addr, write := true, lanes := lanes, data := data, lock := lock }
  | .lockedRead r addr lanes => some (readTxn r addr lanes true)
  | .readWithoutLock r addr lanes => some (readTxn r addr lanes false)
  | .powerOnReset _ _ => none
  | .resetN _ => none
  | .openingWrite => none
  | .fill => none
  | .sweepSettingRead => none
  | .adoption => none
  | .closingWrites => none
  | .entryToRun => none
  | .callTick => none
  | .secondTick => none
  | .slotSecondTick => none
  | .presentationExpiry _ => none
  | .breakInOfferExpiry _ => none
  | .holdRecallExpiry _ => none
  | .transferRecallExpiry _ => none
  | .campRecallExpiry _ => none
  | .wrapUpExpiry _ => none
  | .supervisionExpiry => none
  | .post => none
  | .owedIssue => none

/-- The strap levels on the pins once a command has put its transaction on the bus: RESTART brings those that its reset
will sample. -/
def busPins (s : State) : Instr → Straps
  | .restart _ _ pins => pins
  | _ => s.pins

/-- The word an action through `path` leaves at the ACTION word before its result: through a view, the view's position
number stands in lane 1 (R160). -/
def actionWord (path : CallPath) (word : Word32) : Word32 :=
  match path with
  | .slot _ => word
  | .view p => setLane1 word (BitVec.ofNat 8 p.val)

/-- The position an action names: the one in lane 1 of its word (R198). -/
def Names (s : State) (path : CallPath) (word : Word32) (p : PosNo) : Prop :=
  (laneOf (actionWord path word) 1).toNat = p.val ∧ s.isFitted p = true

/-- The actions by the instruction that spells each, with its code (R199). -/
def IsAction (r : Requester) (path : CallPath) (upper : BitVec 24) (lock : Bool) (c : Instr)
    (code : BitVec 8) : Prop :=
  (c = .answer r path upper lock ∧ code = 1) ∨ (c = .hold r path upper lock ∧ code = 2) ∨
  (c = .swap r path upper lock ∧ code = 3) ∨ (c = .extend r path upper lock ∧ code = 4) ∨
  (c = .release r path upper lock ∧ code = 5)

end Sys2Proof.Safety
end

