-- ==== Sys2Proof/WellFormed.lean ====
section
/-! DEFINITION. Which commands spell what their row says: a full-word command's own code, a requester with the right,
an offset of the row's kind of word. A command that is not well-formed still has a meaning: the part sees the
transaction it puts on the bus and judges it by R147 (log entry 9). -/

namespace Sys2Proof

open Sys2Proof.Machine

/-- The SRAM contents of a power-on: canonical, and inside the address space. -/
def sramFits (cells : List Host.Cell) : Bool :=
  Memory.wf cells && cells.all fun c => decide (c.1 < Config.memoryBytes)

/-- An event code of R199: 1 to 6. -/
def isEventCode (data : Word32) : Bool := decide (1 ≤ (laneOf data 0).toNat) && decide ((laneOf data 0).toNat ≤ 6)

/-- An action code of R199: 1 to 5. -/
def isActionCode (data : Word32) : Bool := decide (1 ≤ (laneOf data 0).toNat) && decide ((laneOf data 0).toNat ≤ 5)

/-- A control command of R199: 1 or 2. -/
def isControlCode (data : Word32) : Bool := decide (1 ≤ (laneOf data 0).toNat) && decide ((laneOf data 0).toNat ≤ 2)

/-- A setting word (R141). -/
def Machine.Place.isSetting : Place → Bool
  | .setting _ => true
  | _ => false

/-- A counter word (R70). -/
def Machine.Place.isCounter : Place → Bool
  | .counterFirst _ => true
  | .counterSecond _ => true
  | _ => false

/-- A view word. -/
def Machine.Place.isView : Place → Bool
  | .view _ _ => true
  | _ => false

/-- A view word that stands for a command word while its position has a current slot: ACTION or LINE (R157). -/
def Machine.Place.isCommandView : Place → Bool
  | .view _ i => decide (i.val < 2)
  | _ => false

/-- The command is what its row of the opcode table says. -/
def Instr.wellFormed : Instr → Bool
  | .powerOnReset _ sram => sramFits sram
  | .resetN _ => true
  | .restart r _ _ => actsForConsole r
  | .openingWrite => true
  | .fill => true
  | .sweepSettingRead => true
  | .adoption => true
  | .closingWrites => true
  | .entryToRun => true
  | .offer r _ _ _ => actsForLink r
  | .abandon r _ _ _ => actsForLink r
  | .extAnswer r _ _ _ => actsForLink r
  | .extBusy r _ _ _ => actsForLink r
  | .extFree r _ _ _ => actsForLink r
  | .extFail r _ _ _ => actsForLink r
  | .unknownEventCode r _ data _ => actsForLink r && !isEventCode data
  | .answer r _ _ _ => actsForConsole r
  | .hold r _ _ _ => actsForConsole r
  | .swap r _ _ _ => actsForConsole r
  | .extend r _ _ _ => actsForConsole r
  | .release r _ _ _ => actsForConsole r
  | .unknownActionCode r _ data _ => actsForConsole r && !isActionCode data
  | .viewActionNoCall r _ _ _ => actsForConsole r
  | .openPosition r _ _ _ => actsForConsole r
  | .closePosition r _ _ _ => actsForConsole r
  | .unknownControlCommand r _ data _ => actsForConsole r && !isControlCode data
  | .heartbeat r _ _ => actsForConsole r
  | .nightRequest r _ _ _ => actsForConsole r
  | .dayRequest r _ _ _ => actsForConsole r
  | .acknowledgement r _ _ _ => actsForConsole r
  | .settingWrite r off _ _ _ => actsForConsole r && (placeOf off).isSetting
  | .counterPreset r off _ _ _ => actsForConsole r && (placeOf off).isCounter
  | .strayWrite r off _ _ _ => (placeOf off).isView || !mayWrite (placeOf off) r
  | .partialCommand r off lanes _ _ =>
    decide (lanes ≠ fullLanes) &&
      (((placeOf off).isCommand && mayWrite (placeOf off) r) || ((placeOf off).isCommandView && decide (r ≠ .other)))
  | .plainWrite _ _ _ _ _ => true
  | .lockedRead _ _ _ => true
  | .callTick => true
  | .secondTick => true
  | .slotSecondTick => true
  | .presentationExpiry _ => true
  | .breakInOfferExpiry _ => true
  | .holdRecallExpiry _ => true
  | .transferRecallExpiry _ => true
  | .campRecallExpiry _ => true
  | .wrapUpExpiry _ => true
  | .supervisionExpiry => true
  | .post => true
  | .owedIssue => true
  | .readWithoutLock _ _ _ => true

end Sys2Proof
end

