-- ==== Sys2Proof/Certificates/Slice0/Obligations.lean ====
section
/-! DEFINITION. The statements about the PA-4160 for the provers. -/

open Sys2Proof Sys2Proof.Machine Sys2Proof.Safety

/-! The step. -/

/-- A step takes the command at the front of the queue and runs it on the rest. -/
def Obligations.StepRunsTheFrontCommand : Prop :=
  ∀ (c : Instr) (rest : List Instr) (s : State),
    step { s with pending := c :: rest } = exec c { s with pending := rest }

/-- With no command waiting, a step is one cycle of CLKREF (the model's choice, log entry 4): the prescaler counts it,
and the cycle that takes it from the top of its REFSEL divisor back to 0 makes a call tick (R99, R100). -/
def Obligations.IdleStepCountsOneReferenceCycle : Prop :=
  ∀ s : State, s.pending = [] →
    (s.prescaler + 1 < (if s.straps.refsel = 0 then 204800 else if s.straps.refsel = 1 then 409600 else 819200) →
      step s = .next { s with prescaler := s.prescaler + 1 }) ∧
    ((if s.straps.refsel = 0 then 204800 else if s.straps.refsel = 1 then 409600 else 819200) ≤ s.prescaler + 1 →
      step s = exec .callTick s)

/-! Invariants that every step keeps. -/

/-- Every step keeps the call store in its canonical form. -/
def Obligations.StepKeepsTheCallStoreCanonical : Prop :=
  ∀ s t : State, s.mem.wf = true → step s = .next t → t.mem.wf = true

/-- Every step keeps every shadow field within its range (R141). -/
def Obligations.StepKeepsSettingsInRange : Prop :=
  ∀ s t : State, SettingsInRange s.settings → step s = .next t → SettingsInRange t.settings

/-- Every step keeps the fault record valid exactly when FAULT is latched, with overflow 0 while it is not (R186). -/
def Obligations.StepKeepsTheFaultRecordAgreeing : Prop :=
  ∀ s t : State, FaultRecordAgrees s → step s = .next t → FaultRecordAgrees t

/-- Every step keeps the Posting Queue at 16 entries or fewer, one at most for any word (R164, R167). -/
def Obligations.StepKeepsThePostingQueueBounded : Prop :=
  ∀ s t : State, PostingBounded s → step s = .next t → PostingBounded t

/-- At the end of every step, while calls may be presented and some position is READY, no slot waits eligible (R86). -/
def Obligations.StepLeavesNoCallWaitingAtAReadyPosition : Prop :=
  ∀ s t : State, (s.seq = .run ↔ s.stage = .running) → ReadyListExact s → NoneWaitsAtReady s → step s = .next t →
    (t.seq = .run ↔ t.stage = .running) ∧ ReadyListExact t ∧ NoneWaitsAtReady t

/-- Every step keeps the optional fields and marks of each record within its disposition or state (R1, R4, R74). -/
def Obligations.StepKeepsRecordsFitting : Prop :=
  ∀ s t : State, RecordsFit s → step s = .next t → RecordsFit t

/-- Every step keeps the slot records, the answer list, the position records and the ready list agreeing with each
other, with the straps and with the Call Clock: positions and homes within their dispositions (R3), thresholds by the
saved class (R46), positions not fitted at their reset values (R74), no deadline behind the count (R105 to R107), and
the rest of `CallStateAgrees` (R45, R53, R75, R76, R82). -/
def Obligations.StepKeepsCallStateAgreeing : Prop :=
  ∀ s t : State, CallStateAgrees s → step s = .next t → CallStateAgrees t

/-- Memory follows the part (R163): in RUN every posted word equals its owner's value once the owed issues, the held
write and the pending posts have been written, and every step keeps it so. The one exception is a step that takes an
owed issue for the very word a held write carries (log entry 12). -/
def Obligations.StepKeepsMemoryFollowingThePart : Prop :=
  ∀ s t : State, s.mem.wf = true → PostingBounded s → StartUpAgrees s → MemoryFollows s → step s = .next t →
    (∀ e ∈ t.owed.drop s.owed.length, ¬ heldWrites s e.offset) →
    t.mem.wf = true ∧ PostingBounded t ∧ StartUpAgrees t ∧ MemoryFollows t

/-- The machine right after power-on has every invariant. -/
def Obligations.ResetHasEveryInvariant : Prop :=
  State.reset.mem.wf = true ∧ SettingsInRange State.reset.settings ∧ FaultRecordAgrees State.reset ∧
    PostingBounded State.reset ∧ NoneWaitsAtReady State.reset ∧ CallStateAgrees State.reset ∧ MemoryFollows State.reset

/-- Only a reset moves the straps in force (R148): a step that changes them has sampled the pins and entered a start-up
phase. -/
def Obligations.OnlyResetsChangeTheStraps : Prop :=
  ∀ (c : Instr) (s t : State), exec c s = .next t → t.straps ≠ s.straps →
    t.straps = t.pins ∧ t.seq ≠ .run ∧ t.stage = .opening

/-! Resets and start-up (chapter 12). -/

/-- POWER_ON_RESET and RESET_N: every block takes its reset values, the straps are sampled, the cause and the phase are
those of the reset, and the call store holds what the SRAM held (R189).

The transactions that wait when either arrives, for RUN or for owed issues, are waiting still, in their order, while the
first of them lies inside the window (R132). Where it lies outside, it passes at the reset as outside traffic does
(R129), and those behind it follow. The WBASE just sampled decides which: the model's choice (log entry 14). -/
def Obligations.ResetsGiveEveryBlockItsResetValues : Prop :=
  ∀ (pins : Straps) (sram : List Host.Cell) (s : State),
    let waiting : List Txn := (s.held.map Held.txn).toList ++ s.bus
    let begun (cause : ResetCause) (phase : Seq) (mem : Memory) : State := { State.reset with
      pins := pins, straps := pins, resetCause := cause, seq := phase, mem := mem, pending := s.pending }
    let resets (c : Instr) (base : State) : Prop :=
      (waiting = [] → exec c s = .next base) ∧
      ∀ (txn : Txn) (rest : List Txn), waiting = txn :: rest →
        (∀ off : Offset, windowOffset pins.wbase txn.addr = some off →
          exec c s = .next { base with bus := txn :: rest }) ∧
        (windowOffset pins.wbase txn.addr = none → base.mem.wf = true →
          ∃ u, exec c s = .next (rest.foldl State.arrive u) ∧ u = { base with mem := u.mem, reply := u.reply } ∧
            (txn.write = true → u.reply = none ∧
              u.mem.readWord txn.addr = mergeLanes txn.lanes txn.data (base.mem.readWord txn.addr) ∧
              ∀ a : Nat, a / 4 ≠ txn.addr.toNat → u.mem.read a = base.mem.read a) ∧
            (txn.write = false → u.mem = base.mem ∧ u.reply = some (base.mem.readWord txn.addr)))
    resets (.powerOnReset pins sram) (begun .power .fill (Memory.ofCells sram)) ∧
      resets (.resetN pins) (begun .pin .sweep s.mem)

/-- RESTART by a requester with the right (R139): once its own write has completed, the reset of cause RESTART into
SWEEP; while issues are owed, the write and the reset behind it wait, and nothing else changes. -/
def Obligations.RestartResetsOnceItsWriteIsMade : Prop :=
  ∀ (r : Requester) (lock : Bool) (pins : Straps) (s : State), Serving s → actsForConsole r = true →
    ∃ t, exec (.restart r lock pins) s = .next t ∧
      (s.owed = [] →
        t = { State.reset with
          pins := pins, straps := pins, resetCause := .restart, seq := .sweep, mem := t.mem, pending := s.pending } ∧
        t.mem.readWord (s.addr 0x009) = Config.restartValue ∧
        ∀ a : Nat, a / 4 ≠ (s.addr 0x009).toNat → t.mem.read a = s.mem.read a) ∧
      (s.owed ≠ [] →
        t = { s with
          pins := pins, lock := lockAfter s.lock (s.writeTxn r 0x009 fullLanes Config.restartValue lock) 0x009
          held := some ⟨s.writeTxn r 0x009 fullLanes Config.restartValue lock,
            .restart (s.addr 0x009) Config.restartValue, s.owed.length⟩ })

/-- While the sequencer is in FILL or SWEEP a window transaction waits and nothing of it is taken, whatever it is and
whoever issues it (R132).

While a transaction waits, what is issued after it waits behind it, outside traffic included (R132, R167). That it
stands in a queue on the bus, in the order issued, is the model's choice (log entry 13): on the board it waits at its
requester. -/
def Obligations.WaitingTrafficIsHeldInOrder : Prop :=
  (∀ (c : Instr) (s : State) (txn : Txn) (off : Offset), busTxn s c = some txn →
      windowOffset s.straps.wbase txn.addr = some off → s.seq ≠ .run → s.held = none → s.bus = [] →
      exec c s = .next { s with pins := busPins s c, bus := [txn] }) ∧
  (∀ (c : Instr) (s : State) (txn : Txn), busTxn s c = some txn → (s.held.isSome = true ∨ s.bus ≠ []) →
      exec c s = .next { s with pins := busPins s c, bus := s.bus ++ [txn] })

/-- OPENING_WRITE and FILL (R190, R191): the MODE status word with both modes DAY, the cause and the phase; then one
DISPOSITION word with the FREE value 0000FFF0h.

CLOSING_WRITES (R195): the nine words memory holds at entry to RUN, and nothing else. -/
def Obligations.FillAndClosingWritesSetThePostedWords : Prop :=
  ((∀ s : State, s.stage = .opening → s.mem.wf = true →
      ∃ t, exec .openingWrite s = .next t ∧
        t = { s with mem := t.mem, stage := if s.seq = .fill then .filling 0 else .settings 0 } ∧
        t.mem.readWord (s.addr 0x010) = modeStatusWord .day .day false s.resetCause s.seq ∧
        ∀ a : Nat, a / 4 ≠ (s.addr 0x010).toNat → t.mem.read a = s.mem.read a) ∧
    (∀ (s : State) (n : SlotNo), s.stage = .filling n → s.mem.wf = true →
      ∃ t, exec .fill s = .next t ∧
        t = { s with mem := t.mem, stage := if n = 127 then .closing else .filling (n + 1) } ∧
        t.mem.readWord (s.addr (slotOffset n 2)) = 0x0000FFF0#32 ∧
        ∀ a : Nat, a / 4 ≠ (s.addr (slotOffset n 2)).toNat → t.mem.read a = s.mem.read a)) ∧
  (∀ s : State, s.stage = .closing → s.mem.wf = true →
      ∃ t, exec .closingWrites s = .next t ∧ t = { s with mem := t.mem, stage := .entering } ∧
        (∀ p : PosNo, t.mem.readWord (s.addr (blockOffset p 1)) = 0xFFFF0000#32) ∧
        t.mem.readWord (s.addr 0x014) = faultHeadWord s.fault s.overflow ∧
        t.mem.readWord (s.addr 0x015) = faultOffsetWord s.fault ∧
        t.mem.readWord (s.addr 0x016) = faultValueWord s.fault ∧
        t.mem.readWord (s.addr 0x011) = causesWord (s.latched ||| causeStarted) ∧
        t.mem.readWord (s.addr 0x010) =
          modeStatusWord (modeOfService s.requested) s.requested false s.resetCause .run ∧
        ∀ a : Nat, (∀ off ∈ ([0x010, 0x011, 0x014, 0x015, 0x016, 0x0C1, 0x0D1, 0x0E1, 0x0F1] : List Offset),
          a / 4 ≠ (s.addr off).toNat) → t.mem.read a = s.mem.read a)

/-- SWEEP_SETTING_READ (R192): the word found is clamped into its shadow, and written back when the clamp changed it; a
MODE word sets the requested mode as well. The words are read in ascending offset; memory ends with the shadow's fields
at their places, bits of no field 0 (R200), and no other shadow field changes. -/
def Obligations.SweepClampsEachSettingIntoItsShadow : Prop :=
  ∀ (s : State) (k : Fin 72), s.stage = .settings k → s.mem.wf = true →
    ∃ t, exec .sweepSettingRead s = .next t ∧
      t = { s with
        mem := t.mem
        settings := s.settings.commit (sweepSetting k) (s.mem.readWord (s.addr (settingOffset (sweepSetting k))))
          s.requested
        requested := if k = 0 then t.settings.mode else s.requested
        stage := if k = 71 then .adopting 0 else .settings (k + 1) } ∧
      OnlySettingChanged (sweepSetting k) s.settings t.settings ∧
      (settingOffset (sweepSetting k)).toNat = (if k.val = 0 then 0 else if k.val < 8 then k.val + 1 else 0x038 + k.val) ∧
      t.mem.readWord (s.addr (settingOffset (sweepSetting k))) = t.settings.word (sweepSetting k) ∧
      (t.mem.readWord (s.addr (settingOffset (sweepSetting k)))).toNat = settingValue t.settings (sweepSetting k) ∧
      ∀ a : Nat, a / 4 ≠ (s.addr (settingOffset (sweepSetting k))).toNat → t.mem.read a = s.mem.read a

/-- ADOPTION (R193, R194): the slot adopted from the word found, or FREE with SWEEP_DISCARD raised when the word is
discarded; listed and scored when it is QUEUED or RECALL; and the word brought to the adopted value. -/
def Obligations.AdoptionTakesOrDiscardsTheWordFound : Prop :=
  ∀ (s : State) (n : SlotNo), s.stage = .adopting n → s.mem.wf = true →
    let found := s.mem.readWord (s.addr (slotOffset n 2))
    let sl := (adoptedSlot found).getD Slot.empty
    ∃ t, exec .adoption s = .next t ∧
      t = { (match adoptedSlot found with
          | some _ => s
          | none => s.raiseFault ⟨.sweepDiscard, none, slotOffset n 2, found⟩) with
        slots := s.slots.set n sl
        answerList := s.answerList ++
          (if sl.disp = .queued ∨ sl.disp = .recall then
            [⟨n, urgency (s.group sl.group) 0 sl.recalls.toNat sl.final⟩] else [])
        mem := t.mem
        stage := if n = 127 then .closing else .adopting (n + 1) } ∧
      t.mem.readWord (s.addr (slotOffset n 2)) = dispositionWord sl ∧
      ∀ a : Nat, a / 4 ≠ (s.addr (slotOffset n 2)).toNat → t.mem.read a = s.mem.read a

/-- The adoption table (R193, R197): what each word found is adopted as, and which words are discarded. -/
def Obligations.AdoptionTableOfDispositionWords : Prop :=
  ∀ w : Word32,
    let code := (w.extractLsb' 0 4).toNat
    let home := (w.extractLsb' 8 4).toNat
    let kind := (w.extractLsb' 26 2).toNat
    let illFormed := (4 ≤ (w.extractLsb' 4 4).toNat ∧ w.extractLsb' 4 4 ≠ 0xF#4) ∨
      (4 ≤ home ∧ home ≠ 15) ∨ (8 ≤ (w.extractLsb' 12 4).toNat ∧ w.extractLsb' 12 4 ≠ 0xF#4) ∨ kind = 3 ∨ 9 ≤ code
    let group : GroupNo := Fin.ofNat 32 (w.extractLsb' 16 5).toNat
    let kept (d : Disp) : Slot :=
      { Slot.empty with
        disp := d, group := group, position := some (Fin.ofNat 4 home), home := some (Fin.ofNat 4 home)
        recalls := w.extractLsb' 21 3, final := w.getLsbD 24 }
    (illFormed → adoptedSlot w = none) ∧
    (¬illFormed →
      (code = 0 → adoptedSlot w = some Slot.empty) ∧
      (code = 1 ∨ (code = 2 ∧ kind = 1) → adoptedSlot w = some { Slot.empty with disp := .queued, group := group }) ∧
      (code = 2 ∧ kind = 0 → adoptedSlot w = none) ∧
      (3 ≤ code ∨ (code = 2 ∧ kind = 2) → home = 15 → adoptedSlot w = none) ∧
      (home ≠ 15 →
        (code = 8 ∨ (code = 2 ∧ kind = 2) → adoptedSlot w = some (kept .recall)) ∧
        (3 ≤ code ∧ code ≤ 5 → adoptedSlot w = some (kept .held)) ∧
        (code = 6 → adoptedSlot w = some (kept .extended)) ∧
        (code = 7 → adoptedSlot w = some (kept .camped))))

/-- ENTRY_TO_RUN with the positions closed and no transaction waiting (R195): RUN, the adopted timers armed, STARTED
latched, the mode the requested one, supervision armed in DAY, and nothing posted.

At entry to RUN the transaction that waited is taken as if it had arrived at that moment (R132). -/
def Obligations.EntryToRunStartsServiceAndTakesTheWaitingTransaction : Prop :=
  (∀ s : State, s.stage = .entering → StartUpAgrees s → s.bus = [] →
      ∃ t, exec .entryToRun s = .next t ∧
        t = { s with
          seq := .run, stage := .running, slots := t.slots, latched := s.latched ||| causeStarted
          actual := modeOfService s.requested
          supervision :=
            if s.requested = .day then s.arm (supervisionSeconds s.settings.supervision) else s.supervision } ∧
        ∀ n : SlotNo, t.slot n = { s.slot n with
          deadline :=
            if (s.slot n).disp = .held then s.arm (s.group (s.slot n).group).hold
            else if (s.slot n).disp = .extended then s.arm (s.group (s.slot n).group).transfer
            else if (s.slot n).disp = .camped then s.arm (s.group (s.slot n).group).camp
            else (s.slot n).deadline }) ∧
  (∀ (c : Instr) (s u : State) (txn : Txn), s.stage = .entering → s.seq ≠ .run → s.bus = [] → s.held = none →
      busTxn s c = some txn → exec .entryToRun s = .next u → busPins s c = s.pins →
      exec .entryToRun { s with bus := [txn] } = exec c u)

/-! Line events (chapter 1). -/

/-- OFFER for a FREE slot of a group of class 1 to 7 (R17): the slot is QUEUED with the group named, joins the list at
the end with its score, is counted, latches QUEUE_ENTRY, and the arbiter acts; the word is written with TAKEN. -/
def Obligations.OfferQueuesAFreeSlot : Prop :=
  ∀ (s : State) (r : Requester) (path : CallPath) (upper : BitVec 24) (lock : Bool) (n : SlotNo),
    Serving s → actsForLink r = true → PathReaches s path n → (s.slot n).disp = .free →
    let g : GroupNo := groupOfField (upper.extractLsb' 0 5)
    (s.group g).cls ≠ 0 →
    let q : State := { s with
      slots := s.slots.set n { Slot.empty with disp := .queued, group := g }
      answerList := s.answerList ++ [⟨n, urgency (s.group g) 0 0 false⟩]
      counters := s.counters.set g { s.counts g with offered := satInc (s.counts g).offered }
      latched := s.latched ||| causeQueueEntry }
    ∃ t, exec (.offer r path upper lock) s = .next t ∧
      WriteDone s q.arbitrate t (s.lineTxn r path 1 upper lock) (slotOffset n 1) fullLanes
        (setLane3 (upper ++ 1#8) Result.taken.code)

/-- A line event the rules refuse (R16, R18, R23 to R28): no owner changes but the fault record, which takes
LINE_REFUSED, and the word is written with the refusal. -/
def Obligations.RefusedLineEventsOnlyRaiseAFault : Prop :=
  ∀ (s : State) (r : Requester) (path : CallPath) (upper : BitVec 24) (data : Word32) (lock : Bool) (n : SlotNo),
    Serving s → actsForLink r = true → PathReaches s path n →
    let refused (c : Instr) (txn : Txn) (word : Word32) (result : Result) : Prop :=
      ∃ t, exec c s = .next t ∧
        WriteDone s (s.raiseFault ⟨.lineRefused, some r, slotOffset n 1, word⟩) t txn (slotOffset n 1) fullLanes
          (setLane3 word result.code)
    ((s.slot n).disp ≠ .free →
      refused (.offer r path upper lock) (s.lineTxn r path 1 upper lock) (upper ++ 1#8) .refusedState) ∧
    ((s.slot n).disp = .free → (s.group (groupOfField (upper.extractLsb' 0 5))).cls = 0 →
      refused (.offer r path upper lock) (s.lineTxn r path 1 upper lock) (upper ++ 1#8) .refusedBarred) ∧
    ((s.slot n).disp = .free →
      refused (.abandon r path upper lock) (s.lineTxn r path 2 upper lock) (upper ++ 2#8) .refusedState) ∧
    ((s.slot n).disp ≠ .extended → (s.slot n).disp ≠ .camped →
      refused (.extAnswer r path upper lock) (s.lineTxn r path 3 upper lock) (upper ++ 3#8) .refusedState ∧
      refused (.extFail r path upper lock) (s.lineTxn r path 6 upper lock) (upper ++ 6#8) .refusedState) ∧
    ((s.slot n).disp ≠ .extended →
      refused (.extBusy r path upper lock) (s.lineTxn r path 4 upper lock) (upper ++ 4#8) .refusedState) ∧
    ((s.slot n).disp ≠ .camped →
      refused (.extFree r path upper lock) (s.lineTxn r path 5 upper lock) (upper ++ 5#8) .refusedState) ∧
    ((laneOf data 0).toNat = 0 ∨ 6 < (laneOf data 0).toNat →
      refused (.unknownEventCode r path data lock) (s.writeTxn r (pathOffset path 1) fullLanes data lock) data
        .refusedCode)

/-- ABANDON of a waiting call counts it, and ABANDON or EXT_ANSWER of a call away from the positions does not; each
frees the slot and takes it out of the list, and no position changes (R14, R19, R23, R24). -/
def Obligations.AbandonAndExtAnswerFreeASlotAtNoPosition : Prop :=
  ∀ (s : State) (r : Requester) (path : CallPath) (upper : BitVec 24) (lock : Bool) (n : SlotNo),
    Serving s → actsForLink r = true → PathReaches s path n →
    let g : GroupNo := (s.slot n).group
    let freed : State := { s with
      slots := s.slots.set n Slot.empty, answerList := s.answerList.filter fun e => decide (e.slot ≠ n) }
    ((s.slot n).disp = .queued ∨ (s.slot n).disp = .recall →
      ∃ t, exec (.abandon r path upper lock) s = .next t ∧
        WriteDone s { freed with
            counters := s.counters.set g { s.counts g with abandoned := satInc (s.counts g).abandoned } } t
          (s.lineTxn r path 2 upper lock) (slotOffset n 1) fullLanes (setLane3 (upper ++ 2#8) Result.taken.code)) ∧
    ((s.slot n).disp = .held ∨ (s.slot n).disp = .extended ∨ (s.slot n).disp = .camped →
      ∃ t, exec (.abandon r path upper lock) s = .next t ∧
        WriteDone s freed t (s.lineTxn r path 2 upper lock) (slotOffset n 1) fullLanes
          (setLane3 (upper ++ 2#8) Result.taken.code)) ∧
    ((s.slot n).disp = .extended ∨ (s.slot n).disp = .camped →
      ∃ t, exec (.extAnswer r path upper lock) s = .next t ∧
        WriteDone s freed t (s.lineTxn r path 3 upper lock) (slotOffset n 1) fullLanes
          (setLane3 (upper ++ 3#8) Result.taken.code))

/-- ABANDON of a PRESENTED call (R20): the slot is freed and counted; a PRESENTING position becomes READY at the end of
the ready list without a miss, an ENGAGED one only loses its offer; the arbiter acts.

ABANDON of a TALKING call frees it and its position takes the wrap-up path (R21); of a SPLIT call, its entry leaves
the stack from wherever it stands and the talking call and threshold stay (R22); no counter changes. Which leavings
call the arbiter is spelled in LeavingACallFollowsTheWrapUpPath. -/
def Obligations.AbandonOfACallAtAPositionChangesThePosition : Prop :=
  (∀ (s : State) (r : Requester) (path : CallPath) (upper : BitVec 24) (lock : Bool) (n : SlotNo) (p : PosNo),
      Serving s → actsForLink r = true → PathReaches s path n → (s.slot n).disp = .presented →
      (s.slot n).position = some p →
      let g : GroupNo := (s.slot n).group
      let freed : State := { s with
        slots := s.slots.set n Slot.empty, answerList := s.answerList.filter fun e => decide (e.slot ≠ n)
        counters := s.counters.set g { s.counts g with abandoned := satInc (s.counts g).abandoned } }
      ∃ t, exec (.abandon r path upper lock) s = .next t ∧
        ((s.pos p).state = .presenting →
          WriteDone s { freed with
              positions := s.positions.set p { Position.empty with state := .ready, misses := (s.pos p).misses }
              readyList := (s.readyList.filter fun x => decide (x ≠ p)) ++ [p] }.arbitrate t
            (s.lineTxn r path 2 upper lock) (slotOffset n 1) fullLanes (setLane3 (upper ++ 2#8) Result.taken.code)) ∧
        ((s.pos p).state = .engaged →
          WriteDone s { freed with positions := s.positions.set p { s.pos p with presented := none } }.arbitrate t
            (s.lineTxn r path 2 upper lock) (slotOffset n 1) fullLanes (setLane3 (upper ++ 2#8) Result.taken.code))) ∧
  (∀ (s : State) (r : Requester) (path : CallPath) (upper : BitVec 24) (lock : Bool) (n : SlotNo) (p : PosNo),
      Serving s → actsForLink r = true → PathReaches s path n → (s.slot n).position = some p →
      let freed : State := { s with
        slots := s.slots.set n Slot.empty, answerList := s.answerList.filter fun e => decide (e.slot ≠ n) }
      ((s.slot n).disp = .talking →
        ∃ t, exec (.abandon r path upper lock) s = .next t ∧
          WriteDone s ((freed.leaveCall p false).arbitrateAfter p (s.pos p)) t (s.lineTxn r path 2 upper lock)
            (slotOffset n 1) fullLanes (setLane3 (upper ++ 2#8) Result.taken.code)) ∧
      ((s.slot n).disp = .split →
        let gone : Position := { s.pos p with stack := (s.pos p).stack.filter fun e => decide (e.slot ≠ n) }
        let q : State := { freed with positions := s.positions.set p gone }
        ∃ t, exec (.abandon r path upper lock) s = .next t ∧
          WriteDone s
            (if (s.pos p).state = .engaged ∧ 4 ≤ (s.pos p).stack.length ∧ gone.stack.length < 4 then q.arbitrate else q)
            t (s.lineTxn r path 2 upper lock) (slotOffset n 1) fullLanes (setLane3 (upper ++ 2#8) Result.taken.code)))

/-- EXT_BUSY camps an EXTENDED call with the camp recall timer armed afresh (R25), EXT_FREE sends a CAMPED call back with
the transfer recall timer (R26); home, recall count and final mark are kept. -/
def Obligations.ExtBusyAndExtFreeMoveAnExtendedCall : Prop :=
  ∀ (s : State) (r : Requester) (path : CallPath) (upper : BitVec 24) (lock : Bool) (n : SlotNo),
    Serving s → actsForLink r = true → PathReaches s path n →
    let moved (d : Disp) (seconds : BitVec 8) : State := { s with
      slots := s.slots.set n { s.slot n with
        disp := d, position := (s.slot n).home, elapsed := 0, deadline := armAt s.callTicks seconds
        returnKind := none, breakIn := false, savedClass := none } }
    ((s.slot n).disp = .extended →
      ∃ t, exec (.extBusy r path upper lock) s = .next t ∧
        WriteDone s (moved .camped (s.group (s.slot n).group).camp) t (s.lineTxn r path 4 upper lock) (slotOffset n 1)
          fullLanes (setLane3 (upper ++ 4#8) Result.taken.code)) ∧
    ((s.slot n).disp = .camped →
      ∃ t, exec (.extFree r path upper lock) s = .next t ∧
        WriteDone s (moved .extended (s.group (s.slot n).group).transfer) t (s.lineTxn r path 5 upper lock)
          (slotOffset n 1) fullLanes (setLane3 (upper ++ 5#8) Result.taken.code))

/-- The recall transition (R12): recall count and final mark, RECALL at the home, the end of the list with its score,
cause RECALL and the recalled counter.

EXT_FAIL takes an EXTENDED or CAMPED call through the recall transition at once, and the arbiter acts (R27). -/
def Obligations.RecallTransitionAndExtFail : Prop :=
  (∀ (s : State) (n : SlotNo),
      let sl := s.slot n
      let g : GroupNo := sl.group
      let count : BitVec 3 := if sl.recalls = 7 then 7 else sl.recalls + 1
      let final : Bool := sl.final || decide ((s.group g).limit ≤ count)
      s.recallSlot n = { s with
        slots := s.slots.set n { sl with
          disp := .recall, position := sl.home, recalls := count, final := final, elapsed := 0, deadline := none
          returnKind := none, breakIn := false, savedClass := none }
        answerList := s.answerList ++ [⟨n, urgency (s.group g) 0 count.toNat final⟩]
        latched := s.latched ||| causeRecall
        counters := s.counters.set g { s.counts g with recalled := satInc (s.counts g).recalled } }) ∧
  (∀ (s : State) (r : Requester) (path : CallPath) (upper : BitVec 24) (lock : Bool) (n : SlotNo),
      Serving s → actsForLink r = true → PathReaches s path n →
      (s.slot n).disp = .extended ∨ (s.slot n).disp = .camped →
      ∃ t, exec (.extFail r path upper lock) s = .next t ∧
        WriteDone s (s.recallSlot n).arbitrate t (s.lineTxn r path 6 upper lock) (slotOffset n 1) fullLanes
          (setLane3 (upper ++ 6#8) Result.taken.code))

/-! Attendant actions (chapter 2). -/

/-- ANSWER of a call at a READY, PRESENTING or WRAPUP position (R35), once the presentations in its way have ended: the
slot TALKING there with the class saved now, out of the list and counted if it was listed, the position ENGAGED with
threshold the lesser of 7 and that class plus one and no misses; then the arbiter acts (R36). -/
def Obligations.AnswerEngagesAFreePosition : Prop :=
  ∀ (s : State) (r : Requester) (path : CallPath) (upper : BitVec 24) (lock : Bool) (n : SlotNo) (p : PosNo),
    Serving s → actsForConsole r = true → PathReaches s path n → Names s path (upper ++ 1#8) p →
    (s.slot n).disp = .queued ∨ (s.slot n).disp = .recall ∨ (s.slot n).disp = .presented ∨ (s.slot n).disp = .held →
    (s.pos p).state = .ready ∨ (s.pos p).state = .presenting ∨ (s.pos p).state = .wrapup →
    let c : Sys2Proof.Class := (s.group (s.slot n).group).cls
    let g : GroupNo := (s.slot n).group
    let u : State := s.clearForAnswer n p
    let q : State := { u with
      slots := u.slots.set n { s.slot n with
        disp := .talking, position := some p, home := some p, returnKind := none, breakIn := false, elapsed := 0
        deadline := none, savedClass := some c }
      positions := u.positions.set p { u.pos p with
        state := .engaged, talking := some n, presented := none, misses := 0, wrapDeadline := none
        threshold := some (if c = 7 then 7 else c + 1) }
      readyList := u.readyList.filter fun x => decide (x ≠ p)
      answerList := if (s.slot n).disp = .held then s.answerList else s.answerList.filter fun e => decide (e.slot ≠ n)
      counters := if (s.slot n).disp = .held then s.counters
        else s.counters.set g { s.counts g with answered := satInc (s.counts g).answered } }
    ∃ t, exec (.answer r path upper lock) s = .next t ∧
      WriteDone s q.arbitrate t (s.actionTxn r path 1 upper lock) (slotOffset n 0) fullLanes
        (setLane3 (actionWord path (upper ++ 1#8)) Result.taken.code)

/-- ANSWER at an ENGAGED position with room on its stack (R33, R35): the talking call is pushed with the threshold it
had, then the call talks there; a close-pending mark stays, an offer of another call is re-tested (R34, R47), and the
arbiter acts (R36). -/
def Obligations.AnswerPushesTheTalkingCall : Prop :=
  ∀ (s : State) (r : Requester) (path : CallPath) (upper : BitVec 24) (lock : Bool) (n m : SlotNo) (p : PosNo)
    (old : Sys2Proof.Class),
    Serving s → actsForConsole r = true → PathReaches s path n → Names s path (upper ++ 1#8) p →
    (s.slot n).disp = .queued ∨ (s.slot n).disp = .recall ∨ (s.slot n).disp = .presented ∨ (s.slot n).disp = .held →
    (s.pos p).state = .engaged → (s.pos p).talking = some m → m ≠ n → (s.pos p).threshold = some old →
    (s.pos p).stack.length < 4 →
    let c : Sys2Proof.Class := (s.group (s.slot n).group).cls
    let g : GroupNo := (s.slot n).group
    let u : State := s.clearForAnswer n p
    let q : State := { u with
      slots := (u.slots.set m { s.slot m with
          disp := .split, elapsed := 0, deadline := none, returnKind := none, breakIn := false }).set n { s.slot n with
        disp := .talking, position := some p, home := some p, returnKind := none, breakIn := false, elapsed := 0
        deadline := none, savedClass := some c }
      positions := u.positions.set p { s.pos p with
        talking := some n, misses := 0, wrapDeadline := none, stack := ⟨m, old⟩ :: (s.pos p).stack
        threshold := some (if c = 7 then 7 else c + 1)
        presented := if (s.pos p).presented = some n then none else (s.pos p).presented }
      readyList := u.readyList.filter fun x => decide (x ≠ p)
      answerList := if (s.slot n).disp = .held then s.answerList else s.answerList.filter fun e => decide (e.slot ≠ n)
      counters := if (s.slot n).disp = .held then s.counters
        else s.counters.set g { s.counts g with answered := satInc (s.counts g).answered } }
    ∃ t, exec (.answer r path upper lock) s = .next t ∧
      WriteDone s (q.retest p).arbitrate t (s.actionTxn r path 1 upper lock) (slotOffset n 0) fullLanes
        (setLane3 (actionWord path (upper ++ 1#8)) Result.taken.code)

/-- The presentations an ANSWER of slot `n` at position `p` ends, without a miss (R34): of `n` at another position, which
becomes READY at the end of the ready list if it was PRESENTING and loses its offer otherwise; and of another call at
`p` when it is PRESENTING, which returns to its return kind with its elapsed count and its place. -/
def Obligations.AnswerEndsPresentationsInItsWay : Prop :=
  ∀ (s : State) (n : SlotNo) (p : PosNo),
    let v : State :=
      match (s.slot n).disp, (s.slot n).position with
      | .presented, some o =>
        if o = p then s
        else if (s.pos o).state = .presenting then { s with
          positions := s.positions.set o { Position.empty with state := .ready, misses := (s.pos o).misses }
          readyList := (s.readyList.filter fun x => decide (x ≠ o)) ++ [o] }
        else { s with positions := s.positions.set o { s.pos o with presented := none } }
      | _, _ => s
    ((s.pos p).state ≠ .presenting ∨ (s.pos p).presented = some n → s.clearForAnswer n p = v) ∧
    ∀ m : SlotNo, (s.pos p).state = .presenting → (s.pos p).presented = some m → m ≠ n →
      s.clearForAnswer n p = { v with
        slots := s.slots.set m { s.slot m with
          disp := if (s.slot m).returnKind = some .recall then .recall else .queued
          position := if (s.slot m).returnKind = some .recall then (s.slot m).home else none
          returnKind := none, breakIn := false, deadline := none, savedClass := none }
        positions := v.positions.set p { s.pos p with presented := none } }

/-- HOLD, EXTEND and RELEASE of the talking call of the position named (R37, R40, R41): HELD with the hold recall timer,
EXTENDED with the transfer recall timer, or FREE; then the position leaves the call, HOLD without wrap-up. Which
leavings call the arbiter is spelled in LeavingACallFollowsTheWrapUpPath.

RELEASE of a HELD call from any fitted position frees it and changes no position (R42). -/
def Obligations.HoldExtendAndReleaseMoveTheCall : Prop :=
  (∀ (s : State) (r : Requester) (path : CallPath) (upper : BitVec 24) (lock : Bool) (n : SlotNo) (p : PosNo),
      Serving s → actsForConsole r = true → PathReaches s path n →
      (s.slot n).disp = .talking → (s.slot n).position = some p →
      let away (d : Disp) (seconds : BitVec 8) : State := { s with
        slots := s.slots.set n { s.slot n with
          disp := d, position := (s.slot n).home, elapsed := 0, deadline := armAt s.callTicks seconds
          returnKind := none, breakIn := false, savedClass := none } }
      let freed : State := { s with
        slots := s.slots.set n Slot.empty, answerList := s.answerList.filter fun e => decide (e.slot ≠ n) }
      let done (c : Instr) (code : BitVec 8) (q : State) : Prop :=
        Names s path (upper ++ code) p →
        ∃ t, exec c s = .next t ∧
          WriteDone s (q.arbitrateAfter p (s.pos p)) t (s.actionTxn r path code upper lock) (slotOffset n 0) fullLanes
            (setLane3 (actionWord path (upper ++ code)) Result.taken.code)
      done (.hold r path upper lock) 2 ((away .held (s.group (s.slot n).group).hold).leaveCall p true) ∧
      done (.extend r path upper lock) 4 ((away .extended (s.group (s.slot n).group).transfer).leaveCall p false) ∧
      done (.release r path upper lock) 5 (freed.leaveCall p false)) ∧
  (∀ (s : State) (r : Requester) (path : CallPath) (upper : BitVec 24) (lock : Bool) (n : SlotNo) (p : PosNo),
      Serving s → actsForConsole r = true → PathReaches s path n → Names s path (upper ++ 5#8) p →
      (s.slot n).disp = .held →
      ∃ t, exec (.release r path upper lock) s = .next t ∧
        WriteDone s { s with
            slots := s.slots.set n Slot.empty, answerList := s.answerList.filter fun e => decide (e.slot ≠ n) } t
          (s.actionTxn r path 5 upper lock) (slotOffset n 0) fullLanes
          (setLane3 (actionWord path (upper ++ 5#8)) Result.taken.code))

/-- How a position leaves its call (R38, R43, R44, R48): a stacked call is popped, with the threshold of its entry, and a
standing offer is re-tested; with none, an offer is withdrawn first, then a close-pending position closes, a HOLD or a
guard of 0 makes it READY at the end of the ready list, and else it enters WRAPUP with the guard armed.

When an event calls the arbiter for a position (R83, R96): the position has become READY, its presentation or offer has
ended, or, while it stays ENGAGED, another call talks there or its stack has fallen below 4 entries. So of the ways a
call is left, the arbiter acts after a pop, the end of an offer and a move to READY, and after no other.

That a pop re-tests and calls the arbiter also when it sets the threshold to the value it had is the model's reading
(log entry 6). -/
def Obligations.LeavingACallFollowsTheWrapUpPath : Prop :=
  (∀ (s : State) (p : PosNo) (byHold : Bool),
      let bare (st : PosState) : Position := { Position.empty with state := st, misses := (s.pos p).misses }
      let others : List PosNo := s.readyList.filter fun x => decide (x ≠ p)
      (∀ (top : StackEntry) (rest : List StackEntry), (s.pos p).stack = top :: rest →
        let popped : State := { s with
          slots := s.slots.set top.slot { s.slot top.slot with
            disp := .talking, elapsed := 0, deadline := none, returnKind := none, breakIn := false }
          positions := s.positions.set p { s.pos p with
            talking := some top.slot, threshold := some top.threshold, stack := rest } }
        s.leaveCall p byHold = popped.retest p) ∧
      (∀ m : SlotNo, (s.pos p).stack = [] → (s.pos p).presented = some m →
        s.leaveCall p byHold = State.leaveCall { s with
          slots := s.slots.set m { s.slot m with
            disp := if (s.slot m).returnKind = some .recall then .recall else .queued
            position := if (s.slot m).returnKind = some .recall then (s.slot m).home else none
            returnKind := none, breakIn := false, deadline := none, savedClass := none }
          positions := s.positions.set p { s.pos p with presented := none } } p byHold) ∧
      ((s.pos p).stack = [] → (s.pos p).presented = none →
        ((s.pos p).closePending = true →
          s.leaveCall p byHold = State.drained { s with
            positions := s.positions.set p (bare .closed), readyList := others }) ∧
        ((s.pos p).closePending = false → byHold = true ∨ s.settings.wrapGuard = 0 →
          s.leaveCall p byHold = { s with
            positions := s.positions.set p (bare .ready), readyList := others ++ [p] }) ∧
        ((s.pos p).closePending = false → byHold = false → s.settings.wrapGuard ≠ 0 →
          s.leaveCall p byHold = { s with
            positions := s.positions.set p { bare .wrapup with
              wrapDeadline := some (s.callTicks + 10 * s.settings.wrapGuard.setWidth 16) }
            readyList := others }))) ∧
  (∀ (s : State) (p : PosNo) (old : Position),
      let now : Position := s.pos p
      let calls : Prop := (now.state = .ready ∧ old.state ≠ .ready) ∨ (old.presented ≠ none ∧ now.presented = none) ∨
        (old.state = .engaged ∧ now.state = .engaged ∧
          (old.talking ≠ now.talking ∨ (4 ≤ old.stack.length ∧ now.stack.length < 4)))
      (calls → s.arbitrateAfter p old = s.arbitrate) ∧ (¬calls → s.arbitrateAfter p old = s)) ∧
  (∀ (s : State) (p : PosNo) (byHold : Bool) (n : SlotNo), (s.pos p).state = .engaged → (s.pos p).talking = some n →
      let left : State := s.leaveCall p byHold
      let ready : Prop := (s.pos p).closePending = false ∧ (byHold = true ∨ s.settings.wrapGuard = 0)
      (∀ (top : StackEntry) (rest : List StackEntry), (s.pos p).stack = top :: rest → top.slot ≠ n →
        left.arbitrateAfter p (s.pos p) = left.arbitrate) ∧
      ((s.pos p).stack = [] → (s.pos p).presented ≠ none ∨ ready → left.arbitrateAfter p (s.pos p) = left.arbitrate) ∧
      ((s.pos p).stack = [] → (s.pos p).presented = none → ¬ready → left.arbitrateAfter p (s.pos p) = left))

/-- SWAP with a stacked call (R39): the talking call and the top entry change places, the threshold with them; a
standing offer is re-tested (R47) and the arbiter acts (R83). That both come about also when the two thresholds are
equal is the model's reading (log entry 6). -/
def Obligations.SwapExchangesTheTalkingCallAndTheTop : Prop :=
  ∀ (s : State) (r : Requester) (path : CallPath) (upper : BitVec 24) (lock : Bool) (n : SlotNo) (p : PosNo)
    (top : StackEntry) (rest : List StackEntry) (old : Sys2Proof.Class),
    Serving s → actsForConsole r = true → PathReaches s path n → Names s path (upper ++ 3#8) p →
    (s.slot n).disp = .talking → (s.slot n).position = some p → (s.pos p).stack = top :: rest → top.slot ≠ n →
    (s.pos p).threshold = some old →
    let q : State := { s with
      slots := (s.slots.set n { s.slot n with
          disp := .split, elapsed := 0, deadline := none, returnKind := none, breakIn := false }).set top.slot
        { s.slot top.slot with
          disp := .talking, elapsed := 0, deadline := none, returnKind := none, breakIn := false }
      positions := s.positions.set p { s.pos p with
        talking := some top.slot, threshold := some top.threshold, stack := ⟨n, old⟩ :: rest } }
    ∃ t, exec (.swap r path upper lock) s = .next t ∧
      WriteDone s (q.retest p).arbitrate t
        (s.actionTxn r path 3 upper lock) (slotOffset n 0) fullLanes
        (setLane3 (actionWord path (upper ++ 3#8)) Result.taken.code)

/-- The refusals of an action in the order of R30, each with the result of the first test that fails: the owners stay as
they were, no cause latches, no fault is raised, nothing is posted (R31), and the word carries the refusal.

A full-word write to view word 8 of a position with no current slot (R161): the word is written at its own address
with REFUSED_NO_CALL, no action is taken and no owner changes. -/
def Obligations.RefusedActionsChangeNothing : Prop :=
  (∀ (s : State) (r : Requester) (path : CallPath) (upper : BitVec 24) (data : Word32) (lock : Bool) (n : SlotNo)
      (c : Instr) (code : BitVec 8),
      Serving s → actsForConsole r = true → PathReaches s path n → IsAction r path upper lock c code →
      let refused (i : Instr) (txn : Txn) (word : Word32) (result : Result) : Prop :=
        ∃ t, exec i s = .next t ∧ t.posts = s.posts ∧ t.owed = s.owed ∧
          WriteDone s s t txn (slotOffset n 0) fullLanes (setLane3 (actionWord path word) result.code)
      let field : Nat := (laneOf (actionWord path (upper ++ code)) 1).toNat
      let answers : Prop := code = 1
      ((laneOf data 0).toNat = 0 ∨ 5 < (laneOf data 0).toNat →
        refused (.unknownActionCode r path data lock) (s.writeTxn r (pathOffset path 0) fullLanes data lock) data
          .refusedCode) ∧
      (s.fitted ≤ field → refused c (s.actionTxn r path code upper lock) (upper ++ code) .refusedPosition) ∧
      ∀ p : PosNo, Names s path (upper ++ code) p →
        (answers → (s.slot n).disp ≠ .queued → (s.slot n).disp ≠ .recall → (s.slot n).disp ≠ .presented →
          (s.slot n).disp ≠ .held → refused c (s.actionTxn r path code upper lock) (upper ++ code) .refusedState) ∧
        (answers → (s.slot n).disp.isAnswerable = true → (s.pos p).state = .closed →
          refused c (s.actionTxn r path code upper lock) (upper ++ code) .refusedClosed) ∧
        (answers → (s.slot n).disp.isAnswerable = true → (s.pos p).state = .engaged → 4 ≤ (s.pos p).stack.length →
          refused c (s.actionTxn r path code upper lock) (upper ++ code) .refusedStack) ∧
        (¬answers → (s.slot n).disp ≠ .talking → ((s.slot n).disp = .held → code ≠ 5) →
          refused c (s.actionTxn r path code upper lock) (upper ++ code) .refusedState) ∧
        (¬answers → (s.slot n).disp = .talking → (s.slot n).position ≠ some p →
          refused c (s.actionTxn r path code upper lock) (upper ++ code) .refusedPosition) ∧
        (code = 3 → (s.slot n).disp = .talking → (s.slot n).position = some p → (s.pos p).stack = [] →
          refused c (s.actionTxn r path code upper lock) (upper ++ code) .refusedStack)) ∧
  (∀ (s : State) (r : Requester) (p : PosNo) (data : Word32) (lock : Bool),
      Serving s → actsForConsole r = true → s.currentSlot p = none →
      ∃ t, exec (.viewActionNoCall r p data lock) s = .next t ∧ t.posts = s.posts ∧ t.owed = s.owed ∧
        WriteDone s s t (s.writeTxn r (blockOffset p 8) fullLanes data lock) (blockOffset p 8) fullLanes
          (setLane3 data Result.refusedNoCall.code))

/-! Positions and the arbiter (chapter 4). -/

/-- OPEN of a position (R78): a CLOSED one becomes READY at the end of the ready list with no misses, and the arbiter
acts; any other stays as it is.

CLOSE (R79 to R81): a READY or WRAPUP position closes with its misses kept; a PRESENTING one as well, its call
returned and the arbiter called; an ENGAGED one is marked close-pending and its offer withdrawn; a CLOSED one stays. -/
def Obligations.OpenAndCloseOfAPosition : Prop :=
  (∀ (s : State) (r : Requester) (p : PosNo) (upper : BitVec 24) (lock : Bool),
      Serving s → actsForConsole r = true → s.isFitted p = true → s.actual ≠ .night → s.nightPending = false →
      ∃ t, exec (.openPosition r p upper lock) s = .next t ∧
        WriteDone s
          (if (s.pos p).state = .closed then
            State.arbitrate { s with
              positions := s.positions.set p { Position.empty with state := .ready }
              readyList := (s.readyList.filter fun x => decide (x ≠ p)) ++ [p] }
          else s) t
          (s.controlTxn r p 1 upper lock) (blockOffset p 0) fullLanes (setLane3 (upper ++ 1#8) Result.taken.code)) ∧
  (∀ (s : State) (r : Requester) (p : PosNo) (upper : BitVec 24) (lock : Bool),
      Serving s → actsForConsole r = true → s.isFitted p = true →
      let closed (u : State) : State := { u with
        positions := u.positions.set p { Position.empty with misses := (s.pos p).misses }
        readyList := s.readyList.filter fun x => decide (x ≠ p) }
      ∃ t, exec (.closePosition r p upper lock) s = .next t ∧
        WriteDone s
          (match (s.pos p).state with
            | .closed => s
            | .ready => closed s
            | .wrapup => closed s
            | .presenting => (closed (s.withdraw p)).arbitrate
            | .engaged =>
              let marked : State := { s.withdraw p with
                positions := s.positions.set p { s.pos p with presented := none, closePending := true } }
              if (s.pos p).presented.isSome then marked.arbitrate else marked) t
          (s.controlTxn r p 2 upper lock) (blockOffset p 0) fullLanes (setLane3 (upper ++ 2#8) Result.taken.code))

/-- A withdrawal (R88): the call goes back to its return kind with its elapsed count and its place in the list, and the
position loses it without a miss; a position that presents nothing is left as it is.

The re-test of a break-in offer (R47): it stands while the offered call's class now reaches the threshold and the
stack has room, and is withdrawn otherwise, with no miss. -/
def Obligations.WithdrawalAndRetestOfAnOffer : Prop :=
  (∀ (s : State) (p : PosNo),
      ((s.pos p).presented = none → s.withdraw p = s) ∧
      ∀ m : SlotNo, (s.pos p).presented = some m →
        s.withdraw p = { s with
          slots := s.slots.set m { s.slot m with
            disp := if (s.slot m).returnKind = some .recall then .recall else .queued
            position := if (s.slot m).returnKind = some .recall then (s.slot m).home else none
            returnKind := none, breakIn := false, deadline := none, savedClass := none }
          positions := s.positions.set p { s.pos p with presented := none } }) ∧
  (∀ (s : State) (p : PosNo) (m : SlotNo) (t : Sys2Proof.Class),
      (s.pos p).presented = some m → (s.pos p).threshold = some t →
      (t ≤ (s.group (s.slot m).group).cls ∧ (s.pos p).stack.length < 4 → s.retest p = s) ∧
      (¬(t ≤ (s.group (s.slot m).group).cls ∧ (s.pos p).stack.length < 4) →
        s.retest p = { s with
          slots := s.slots.set m { s.slot m with
            disp := if (s.slot m).returnKind = some .recall then .recall else .queued
            position := if (s.slot m).returnKind = some .recall then (s.slot m).home else none
            returnKind := none, breakIn := false, deadline := none, savedClass := none }
          positions := s.positions.set p { s.pos p with presented := none } }))

/-- A CONTROL command refused by R77, with the result of the first test that fails, changes no owner and posts
nothing. -/
def Obligations.RefusedControlCommandsChangeNothing : Prop :=
  ∀ (s : State) (r : Requester) (p : PosNo) (upper : BitVec 24) (data : Word32) (lock : Bool),
    Serving s → actsForConsole r = true →
    let refused (c : Instr) (txn : Txn) (word : Word32) (result : Result) : Prop :=
      ∃ t, exec c s = .next t ∧ t.posts = s.posts ∧ t.owed = s.owed ∧
        WriteDone s s t txn (blockOffset p 0) fullLanes (setLane3 word result.code)
    ((laneOf data 0).toNat = 0 ∨ 2 < (laneOf data 0).toNat →
      refused (.unknownControlCommand r p data lock) (s.writeTxn r (blockOffset p 0) fullLanes data lock) data
        .refusedCode) ∧
    (s.fitted ≤ p.val →
      refused (.openPosition r p upper lock) (s.controlTxn r p 1 upper lock) (upper ++ 1#8) .refusedPosition ∧
      refused (.closePosition r p upper lock) (s.controlTxn r p 2 upper lock) (upper ++ 2#8) .refusedPosition) ∧
    (p.val < s.fitted → s.actual = .night ∨ s.nightPending = true →
      refused (.openPosition r p upper lock) (s.controlTxn r p 1 upper lock) (upper ++ 1#8) .refusedMode)

/-- One ordinary presentation (R84): the best candidate goes to its READY home when it is RECALL and else to the first
position of the ready list; the repetition goes on from there while candidates and READY positions remain, and stops
when there is no candidate or no READY position (R86). -/
def Obligations.ArbiterPresentsTheBestCandidate : Prop :=
  (∀ (s : State) (k : Nat), s.bestCandidate = none ∨ s.readyList = [] → State.presentAll k s = s) ∧
  ∀ (s : State) (e : Listed) (first : PosNo) (rest : List PosNo) (k : Nat),
    s.bestCandidate = some e → s.readyList = first :: rest →
    let p : PosNo :=
      match (s.slot e.slot).home with
      | some h => if (s.slot e.slot).disp = .recall ∧ (s.pos h).state = .ready then h else first
      | none => first
    State.presentAll (k + 1) s = State.presentAll k { s with
      slots := s.slots.set e.slot { s.slot e.slot with
        disp := .presented, position := some p, breakIn := false, savedClass := none
        deadline := armAt s.callTicks s.settings.present
        returnKind := some (if (s.slot e.slot).disp = .recall then .recall else .queued) }
      positions := s.positions.set p { Position.empty with
        state := .presenting, presented := some e.slot, misses := (s.pos p).misses }
      readyList := s.readyList.filter fun x => decide (x ≠ p) }

/-- The arbiter's break-in offer (R85): with no READY position, the best candidate at the lowest qualifying threshold
goes to the lowest-numbered qualifying position of that threshold, which stays as it is but for the offer. With no
candidate at that threshold, or no qualifying position, there is no offer.

The arbiter makes ordinary presentations and then break-in offers. Once it has acted there is no candidate or no READY
position left, and where no position is READY no candidate reaches the lowest qualifying threshold (R86). -/
def Obligations.ArbiterOffersABreakInAtTheLowestThreshold : Prop :=
  let qualifies (s : State) (x : PosNo) (u : Sys2Proof.Class) : Prop :=
    x.val < s.fitted ∧ (s.pos x).state = .engaged ∧ (s.pos x).presented = none ∧ (s.pos x).closePending = false ∧
      (s.pos x).stack.length < 4 ∧ (s.pos x).threshold = some u
  (∀ s : State, s.arbitrate = State.offerAll 4 (State.presentAll s.readyList.length s)) ∧
  (∀ s : State, ReadyListExact s →
    let t : State := s.arbitrate
    (t.bestCandidate = none ∨ t.readyList = []) ∧
    ∀ (p : PosNo) (u : Sys2Proof.Class), t.readyList = [] → qualifies t p u →
      (∀ x v, qualifies t x v → u ≤ v) → t.bestAt u = none) ∧
  ∀ (s : State) (k : Nat),
    (s.readyList ≠ [] ∨ (∀ x u, ¬qualifies s x u) → State.offerAll (k + 1) s = s) ∧
    ∀ (p : PosNo) (t : Sys2Proof.Class), s.readyList = [] → qualifies s p t →
      (∀ x u, qualifies s x u → t ≤ u ∧ (u = t → p ≤ x)) →
      (s.bestAt t = none → State.offerAll (k + 1) s = s) ∧
      ∀ e : Listed, s.bestAt t = some e → State.offerAll (k + 1) s = State.offerAll k { s with
        slots := s.slots.set e.slot { s.slot e.slot with
          disp := .presented, position := some p, breakIn := true, savedClass := none
          deadline := armAt s.callTicks s.settings.present
          returnKind := some (if (s.slot e.slot).disp = .recall then .recall else .queued) }
        positions := s.positions.set p { s.pos p with presented := some e.slot } }

/-- The best candidate (R57, R64, R65): of the eligible slots, in RUN and DAY with no night request pending, the one of
greatest score, the earliest in the list among equals; at a threshold, of those whose class now reaches it.

The urgency score (R61, R62). -/
def Obligations.UrgencyScoreAndBestCandidate : Prop :=
  (∀ (s : State) (t : Sys2Proof.Class),
      let candidate (i : Nat) (e : Listed) : Prop :=
        s.answerList[i]? = some e ∧ ((s.slot e.slot).disp = .queued ∨ (s.slot e.slot).disp = .recall)
      let reaches (e : Listed) : Prop := t ≤ (s.group (s.slot e.slot).group).cls
      let allowed : Prop := s.seq = .run ∧ s.actual = .day ∧ s.nightPending = false
      (¬allowed → s.bestCandidate = none ∧ s.bestAt t = none) ∧
      (allowed → (s.bestCandidate = none ↔ ∀ i e, ¬candidate i e)) ∧
      (allowed → (s.bestAt t = none ↔ ∀ i e, candidate i e → ¬reaches e)) ∧
      (∀ b, s.bestCandidate = some b → ∃ i, candidate i b ∧
        ∀ j e, candidate j e → e.score ≤ b.score ∧ (e.score = b.score → i ≤ j)) ∧
      (∀ b, s.bestAt t = some b → ∃ i, candidate i b ∧ reaches b ∧
        ∀ j e, candidate j e → reaches e → e.score ≤ b.score ∧ (e.score = b.score → i ≤ j))) ∧
  (∀ (g : GroupSettings) (waited recalls : Nat),
      urgency g waited recalls true = 255 ∧
      (g.grain = 0 → (urgency g waited recalls false).toNat = min 255 (32 * g.cls.toNat + 24 * recalls)) ∧
      (g.grain ≠ 0 → (urgency g waited recalls false).toNat =
        min 255 (32 * g.cls.toNat + g.step.toNat * (waited / g.grain.toNat) + 24 * recalls)))

/-! The Call Clock and the events of ticks and deadlines (chapter 5). -/

/-- The deadline arithmetic (R104, R105, R109): arming for n seconds, the expiry test, and the remaining seconds rounded
up; a deadline is found expired exactly at the call tick that brings the count to it. That the remaining time reads 0
from that tick until the expiry is taken, the deadline being armed still, is the model's choice (log entry 28). -/
def Obligations.DeadlinesExpireAtTheirCount : Prop :=
  (∀ (now : Tick) (n : BitVec 8),
    (n = 0 → armAt now n = none) ∧
    (n ≠ 0 → ∃ d, armAt now n = some d ∧ d.toNat = (now.toNat + 10 * n.toNat) % 65536)) ∧
  (∀ now d : Tick, expiredAt now (some d) = decide ((now.toNat + 65536 - d.toNat) % 65536 < 32768)) ∧
  (∀ (now : Tick) (n : BitVec 8) (k : Nat), n ≠ 0 → k ≤ 10 * n.toNat →
    (expiredAt (now + BitVec.ofNat 16 k) (armAt now n) = true ↔ k = 10 * n.toNat) ∧
    remainingAt (now + BitVec.ofNat 16 k) (armAt now n) = (10 * n.toNat - k + 9) / 10) ∧
  (∀ now d : Tick, remainingAt now (some d) = ((d.toNat + 65536 - now.toNat) % 65536 + 9) / 10) ∧
  ∀ now : Tick, expiredAt now none = false ∧ remainingAt now none = 0

/-- CALL_TICK (R100, R101, R106): what the last tick found and no command has taken is taken first, so that each expiry
is taken at the count that finds it; then the three counters step, the prescaler is back at 0, and in RUN the tick at
which the divider comes to 0 delivers a second tick to the Answer Queue and to the Slot Controller.

The model's choices: the prescaler is set to 0 whatever it had counted (log entry 4), what was left untaken comes in
the order of `dueCommands` (log entry 5), and a second tick delivered is a mark at each of its two owners (log entry
25). -/
def Obligations.CallTickStepsTheCounters : Prop :=
  ∀ s : State, ∃ u t : State, runAll s dueCommands = some u ∧ exec .callTick s = .next t ∧
    t = { u with
      prescaler := 0, callTicks := t.callTicks, divider := t.divider, cadence := t.cadence
      secondAtQueue := decide (s.seq = .run ∧ s.divider = 9), secondAtSlots := decide (s.seq = .run ∧ s.divider = 9) } ∧
    t.callTicks.toNat = (s.callTicks.toNat + 1) % 65536 ∧ t.divider.val = (s.divider.val + 1) % 10 ∧
    t.cadence.val = (s.cadence.val + 1) % 40 ∧
    (s.seq ≠ .run ∨ NothingFound s → u = s) ∧ (CallStateAgrees s → NothingFound u)

/-- SECOND_TICK at the Answer Queue (R59): every listed slot waits one second more, holding at 4095, is scored with the W
just reached, and the arbiter acts; one not delivered does not happen (log entry 5).

SLOT_SECOND_TICK at the Slot Controller (R10): one second more in TALKING, SPLIT, HELD, EXTENDED and CAMPED, holding
at 4095; nothing else changes and nothing is posted.

Each owner takes the tick from a mark of its own, in either order: the model's choice (log entry 25). -/
def Obligations.SecondTicksAgeTheCalls : Prop :=
  (∀ s : State, s.seq = .run → ListFollows s →
      (s.secondAtQueue = false → exec .secondTick s = .next s) ∧
      (s.secondAtQueue = true → ∃ q t : State, exec .secondTick s = .next t ∧ EventDone s q.arbitrate t ∧
        q = { s with secondAtQueue := false, slots := q.slots, answerList := q.answerList } ∧
        (∀ n : SlotNo, q.slot n = if (s.slot n).disp.isListed = true then
            { s.slot n with elapsed := if (s.slot n).elapsed = 4095 then 4095 else (s.slot n).elapsed + 1 }
          else s.slot n) ∧
        q.answerList = s.answerList.map fun e => ⟨e.slot, urgency (s.group (s.slot e.slot).group)
          (q.slot e.slot).elapsed.toNat (s.slot e.slot).recalls.toNat (s.slot e.slot).final⟩)) ∧
  (∀ s : State, s.seq = .run →
      (s.secondAtSlots = false → exec .slotSecondTick s = .next s) ∧
      (s.secondAtSlots = true → ∃ t, exec .slotSecondTick s = .next t ∧
        t = { s with secondAtSlots := false, slots := t.slots } ∧
        ∀ n : SlotNo, t.slot n =
          if (s.slot n).disp = .talking ∨ (s.slot n).disp = .split ∨ (s.slot n).disp = .held ∨
              (s.slot n).disp = .extended ∨ (s.slot n).disp = .camped then
            { s.slot n with elapsed := if (s.slot n).elapsed = 4095 then 4095 else (s.slot n).elapsed + 1 }
          else s.slot n))

/-- The three recall expiries (R9, R12, R115): a HELD, EXTENDED or CAMPED call whose deadline is found expired takes the
recall transition and the arbiter acts; one not due does not happen (log entry 5). -/
def Obligations.RecallExpiriesReturnTheCall : Prop :=
  ∀ (s : State) (n : SlotNo) (c : Instr) (d : Disp),
    (c = .holdRecallExpiry n ∧ d = .held) ∨ (c = .transferRecallExpiry n ∧ d = .extended) ∨
      (c = .campRecallExpiry n ∧ d = .camped) →
    (s.seq = .run → (s.slot n).disp = d → s.expired (s.slot n).deadline = true →
      ∃ t, exec c s = .next t ∧ EventDone s (s.recallSlot n).arbitrate t) ∧
    (s.seq ≠ .run ∨ (s.slot n).disp ≠ d ∨ s.expired (s.slot n).deadline = false → exec c s = .next s)

/-- PRESENTATION_EXPIRY at a PRESENTING position (R90): the call returns, MISS latches, the miss count rises, holding at
7, and the position closes with AUTOCLOSE when the miss limit is reached, or becomes READY; then the arbiter acts. One not
due does not happen (log entry 5). -/
def Obligations.PresentationExpiryCountsAMiss : Prop :=
  ∀ (s : State) (n : SlotNo) (p : PosNo), (s.slot n).disp = .presented → (s.slot n).position = some p →
    (s.pos p).state = .presenting → (s.pos p).presented = some n →
    (s.seq = .run → s.expired (s.slot n).deadline = true →
      let misses : BitVec 3 := if (s.pos p).misses = 7 then 7 else (s.pos p).misses + 1
      let closes : Bool := decide (s.settings.missLimit ≠ 0) && decide (s.settings.missLimit ≤ misses)
      let others : List PosNo := s.readyList.filter fun x => decide (x ≠ p)
      let q : State := { s.withdraw p with
        positions := s.positions.set p { Position.empty with
          state := if closes then .closed else .ready, misses := misses }
        readyList := if closes then others else others ++ [p]
        latched := if closes then s.latched ||| causeMiss ||| causeAutoclose else s.latched ||| causeMiss }
      ∃ t, exec (.presentationExpiry n) s = .next t ∧ EventDone s q.arbitrate t) ∧
    (s.seq ≠ .run ∨ s.expired (s.slot n).deadline = false → exec (.presentationExpiry n) s = .next s)

/-- BREAK_IN_OFFER_EXPIRY at an ENGAGED position (R91): the call returns, the offer ends without a miss, and the arbiter
acts.

WRAP_UP_EXPIRY (R94): the position becomes READY at the end of the ready list and the arbiter acts. Neither happens when
it is not due (log entry 5). -/
def Obligations.OfferAndWrapUpExpiriesCountNoMiss : Prop :=
  (∀ (s : State) (n : SlotNo) (p : PosNo), (s.slot n).disp = .presented → (s.slot n).position = some p →
      (s.pos p).state = .engaged → (s.pos p).presented = some n →
      (s.seq = .run → s.expired (s.slot n).deadline = true →
        ∃ t, exec (.breakInOfferExpiry n) s = .next t ∧ EventDone s (s.withdraw p).arbitrate t) ∧
      (s.seq ≠ .run ∨ s.expired (s.slot n).deadline = false → exec (.breakInOfferExpiry n) s = .next s)) ∧
  (∀ (s : State) (p : PosNo),
      (s.seq = .run → (s.pos p).state = .wrapup → s.expired (s.pos p).wrapDeadline = true →
        ∃ t, exec (.wrapUpExpiry p) s = .next t ∧ EventDone s (State.arbitrate { s with
          positions := s.positions.set p { Position.empty with state := .ready, misses := (s.pos p).misses }
          readyList := (s.readyList.filter fun x => decide (x ≠ p)) ++ [p] }) t) ∧
      (s.seq ≠ .run ∨ (s.pos p).state ≠ .wrapup ∨ s.expired (s.pos p).wrapDeadline = false →
        exec (.wrapUpExpiry p) s = .next s))

/-! Service modes (chapter 6). -/

/-- SUPERVISION_EXPIRY in DAY (R123): LAPSED, LAPSE and MODE latched, every presentation and offer withdrawn without a
miss, PRESENTING positions READY in ascending number behind those READY already, and all else kept. One not due does not
happen (log entry 5). -/
def Obligations.SupervisionExpiryEntersLapsed : Prop :=
  ∀ s : State, CallStateAgrees s →
    (s.seq = .run → s.actual = .day → s.expired s.supervision = true →
      ∃ q t : State, exec .supervisionExpiry s = .next t ∧ EventDone s q t ∧
        q = { s with
          actual := .lapsed, supervision := none, latched := s.latched ||| causeLapse ||| causeMode
          slots := q.slots, positions := q.positions
          readyList := s.readyList ++
            ([0, 1, 2, 3] : List PosNo).filter fun p => decide ((s.pos p).state = .presenting) } ∧
        (∀ p : PosNo, q.pos p =
          { s.pos p with
            state := if (s.pos p).state = .presenting then .ready else (s.pos p).state, presented := none }) ∧
        ∀ n : SlotNo, q.slot n = if (s.slot n).disp = .presented then (s.slot n).returned else s.slot n) ∧
    (s.seq ≠ .run ∨ s.actual ≠ .day ∨ s.expired s.supervision = false → exec .supervisionExpiry s = .next s)

/-- The night request (R118): every presentation withdrawn without a miss, every position closed but the ENGAGED ones,
which are marked close-pending; NIGHT at once when none is ENGAGED, and otherwise the night-pending mark.

The end of a drain (R119, R124): a close-pending position has closed with a request pending. In DAY with no fitted
position ENGAGED the part enters NIGHT; otherwise nothing changes. -/
def Obligations.NightRequestAndTheEndOfItsDrain : Prop :=
  (∀ s : State, CallStateAgrees s → (∀ p : PosNo, s.fitted ≤ p.val → (s.pos p).state = .closed) →
      ∃ q : State, s.nightRequest = q ∧
        q = { s with
          slots := q.slots, positions := q.positions, readyList := []
          actual := if ∃ p : PosNo, (s.pos p).state = .engaged then s.actual else .night
          nightPending := if ∃ p : PosNo, (s.pos p).state = .engaged then true else false
          supervision := if ∃ p : PosNo, (s.pos p).state = .engaged then s.supervision else none
          latched := if ∃ p : PosNo, (s.pos p).state = .engaged then s.latched else s.latched ||| causeMode } ∧
        (∀ p : PosNo, q.pos p = if (s.pos p).state = .engaged then
            { s.pos p with presented := none, closePending := true }
          else { Position.empty with misses := (s.pos p).misses }) ∧
        ∀ n : SlotNo, q.slot n = if (s.slot n).disp = .presented then (s.slot n).returned else s.slot n) ∧
  (∀ s : State,
      (s.nightPending = true → s.actual = .day → (∀ p : PosNo, p.val < s.fitted → (s.pos p).state ≠ .engaged) →
        s.drained = { s with
          actual := .night, nightPending := false, supervision := none, latched := s.latched ||| causeMode }) ∧
      (s.nightPending = false ∨ s.actual ≠ .day ∨ (∃ p : PosNo, p.val < s.fitted ∧ (s.pos p).state = .engaged) →
        s.drained = s))

/-- NIGHT_REQUEST and DAY_REQUEST (R117 to R120, R124): the MODE shadow and the requested mode take the value; then, by
the actual mode, the night request, the cancelling of one, the return from NIGHT with supervision armed, or nothing.

A SETTING_WRITE of the MODE word with any lanes and data acts on the value of the merged word (R117, R140, R141): with
lane 0 not enabled that of the shadow, and the requested mode in place of a value that is neither DAY nor NIGHT. -/
def Obligations.ModeWritesActByTheActualMode : Prop :=
  ∀ (s : State) (r : Requester) (lock : Bool), Serving s → actsForConsole r = true →
    let asked (v : Service) : State := { s with settings := { s.settings with mode := v }, requested := v }
    let acted (v : Service) : State :=
      match s.actual, v with
      | .day, .night => if s.nightPending = false then (asked .night).nightRequest else asked .night
      | .day, .day => if s.nightPending then State.arbitrate { asked .day with nightPending := false } else asked .day
      | .night, .day => State.arbitrate { asked .day with
          actual := .day, supervision := armAt s.callTicks (supervisionSeconds s.settings.supervision)
          latched := s.latched ||| causeMode }
      | .night, .night => asked .night
      | .lapsed, v => asked v
    let word (v : Service) : Word32 := match v with
      | .day => 0x00000001#32
      | .night => 0x00000002#32
    (∀ (upperLanes : BitVec 3) (rest : BitVec 30),
      (∃ t, exec (.nightRequest r upperLanes rest lock) s = .next t ∧
        WriteDone s (acted .night) t (s.modeTxn r upperLanes rest 2 lock) 0x000 fullLanes (word .night)) ∧
      ∃ t, exec (.dayRequest r upperLanes rest lock) s = .next t ∧
        WriteDone s (acted .day) t (s.modeTxn r upperLanes rest 1 lock) 0x000 fullLanes (word .day)) ∧
    ∀ (lanes : Lanes) (data : Word32),
      let v : Service :=
        if lanes.getLsbD 0 = false then s.settings.mode
        else if data.toNat % 4 = 1 then .day else if data.toNat % 4 = 2 then .night else s.requested
      ∃ t, exec (.settingWrite r 0x000 lanes data lock) s = .next t ∧
        WriteDone s (acted v) t (s.writeTxn r 0x000 lanes data lock) 0x000 fullLanes (word v)

/-- HEARTBEAT (R122, R125, R138): in DAY the deadline is armed with the interval of the code, 2, 4, 8 or 16 seconds, or
none; in NIGHT nothing; in LAPSED the part returns to DAY, and to the drain when NIGHT is requested. -/
def Obligations.HeartbeatActsByTheActualMode : Prop :=
  ∀ (s : State) (r : Requester) (data : Word32) (lock : Bool), Serving s → actsForConsole r = true →
    let code : Nat := s.settings.supervision.toNat
    let seconds : BitVec 8 :=
      if code = 0 then 0 else if code = 1 then 2 else if code = 2 then 4 else if code = 3 then 8 else 16
    let day : State := { s with
      actual := .day, supervision := armAt s.callTicks seconds, latched := s.latched ||| causeMode }
    ∃ t, exec (.heartbeat r data lock) s = .next t ∧
      WriteDone s
        (match s.actual with
          | .day => { s with supervision := armAt s.callTicks seconds }
          | .night => s
          | .lapsed =>
            match s.requested with
            | .day => State.arbitrate { day with nightPending := false }
            | .night => day.nightRequest) t
        (s.writeTxn r 0x001 fullLanes data lock) 0x001 fullLanes (setLane3 data Result.taken.code)

/-! Passing traffic (chapters 7 and 8). -/

/-- SETTING_WRITE of any setting word but MODE (R140): merged with the shadow by lanes, clamped, shadowed, and written on
all four lanes; nothing else changes. (For MODE see ModeWritesActByTheActualMode.)

The word written, MODE's too, holds the shadow's fields at their places, and bits of no field are 0 (R140, R200). The
fields of the other setting words, of the other groups and of the group's other word stay as they were.

The clamps of the setting words, MODE's among them (R141). -/
def Obligations.SettingWriteMergesClampsAndShadows : Prop :=
  (∀ (s : State) (r : Requester) (w : SettingWord) (lanes : Lanes) (data : Word32) (lock : Bool),
    Serving s → actsForConsole r = true → w ≠ .mode →
    ∃ t, exec (.settingWrite r (settingOffset w) lanes data lock) s = .next t ∧
      WriteDone s
        { s with
          settings := s.settings.commit w (mergeLanes lanes data (s.settings.word w)) s.requested } t
        (s.writeTxn r (settingOffset w) lanes data lock) (settingOffset w) fullLanes (t.settings.word w)) ∧
  (∀ (t : Settings) (w : SettingWord), (t.word w).toNat = settingValue t w) ∧
  (∀ (t : Settings) (w : SettingWord) (v : Word32) (requested : Service),
    OnlySettingChanged w t (t.commit w v requested)) ∧
  ∀ (t : Settings) (v : Word32) (requested : Service) (g : GroupNo),
    (t.commit .supervision v requested).supervision.toNat = min 4 (v.toNat % 256) ∧
    (t.commit .present v requested).present.toNat = max 5 (min 60 (v.toNat % 256)) ∧
    (t.commit .missLimit v requested).missLimit.toNat = v.toNat % 8 ∧
    (t.commit .wrapGuard v requested).wrapGuard.toNat = min 15 (v.toNat % 256) ∧
    (t.commit .nightBell v requested).nightBell.toNat = max 1 (v.toNat % 8) ∧
    ((t.commit .bellEnable v requested).bellOn = true ↔ v.toNat % 2 = 1) ∧
    (t.commit .attnEnable v requested).attnEnable.toNat = v.toNat % 256 ∧
    (t.commit .mode v requested).mode =
      (if v.toNat % 4 = 1 then .day else if v.toNat % 4 = 2 then .night else requested) ∧
    (∀ u : GroupSettings, u = (t.commit (.groupFirst g) v requested).groups[g] →
      u.cls.toNat = v.toNat % 8 ∧ u.grain.toNat = min 63 (v.toNat / 256 % 256) ∧
      u.step.toNat = max 1 (v.toNat / 65536 % 16) ∧ u.limit.toNat = max 1 (v.toNat / 16777216 % 8)) ∧
    ∀ u : GroupSettings, u = (t.commit (.groupSecond g) v requested).groups[g] →
      u.hold.toNat = v.toNat % 256 ∧ u.transfer.toNat = v.toNat / 256 % 256 ∧ u.camp.toNat = v.toNat / 65536 % 256

/-- COUNTER_PRESET (R72): the two counts of the word take the merged word, which memory receives on all four lanes. -/
def Obligations.CounterPresetMergesWithTheCounts : Prop :=
  ∀ (s : State) (r : Requester) (g : GroupNo) (lanes : Lanes) (data : Word32) (lock : Bool),
    Serving s → actsForConsole r = true →
    let first : Word32 := mergeLanes lanes data ((s.counts g).answered ++ (s.counts g).offered)
    let second : Word32 := mergeLanes lanes data ((s.counts g).recalled ++ (s.counts g).abandoned)
    let at1 : Offset := BitVec.ofNat 11 (0x080 + 2 * g.val)
    let at2 : Offset := BitVec.ofNat 11 (0x081 + 2 * g.val)
    (∃ t, exec (.counterPreset r at1 lanes data lock) s = .next t ∧
      WriteDone s { s with
          counters := s.counters.set g { s.counts g with
            offered := first.extractLsb' 0 16, answered := first.extractLsb' 16 16 } } t
        (s.writeTxn r at1 lanes data lock) at1 fullLanes first) ∧
    ∃ t, exec (.counterPreset r at2 lanes data lock) s = .next t ∧
      WriteDone s { s with
          counters := s.counters.set g { s.counts g with
            abandoned := second.extractLsb' 0 16, recalled := second.extractLsb' 16 16 } } t
        (s.writeTxn r at2 lanes data lock) at2 fullLanes second

/-- STRAY_WRITE (R144, R145): STRAY_WRITE is raised and no other owner changes. A posted word is written with the part's
value of it; for any other word nothing is put on the S-side, and memory keeps what it held.

A write that puts nothing on the S-side waits for the issues its own event owed, and completes at once when it owed
none, although issues of earlier events are owed: the model's choice (log entry 26). -/
def Obligations.StrayWritesAreReplacedOrDropped : Prop :=
  ∀ (s : State) (r : Requester) (off : Offset) (lanes : Lanes) (data : Word32) (lock : Bool),
    Serving s → mayWrite (s.reach off).place r = false →
    let word : Offset := (s.reach off).offset
    let txn : Txn := s.writeTxn r off lanes data lock
    let q : State := s.raiseFault ⟨.strayWrite, some r, word, mergeLanes lanes data 0⟩
    ∃ t, exec (.strayWrite r off lanes data lock) s = .next t ∧
      (word ∈ postedOffsets → CarriedDone s q t txn word) ∧
      (word ∉ postedOffsets →
        OwnersAre t q ∧ t.lock = lockAfter s.lock txn word ∧ PostsFollow s t none ∧ t.mem = s.mem ∧
          (t.owed = s.owed → t.held = none ∧ t.reply = none) ∧
          (t.owed ≠ s.owed → t.held = some ⟨txn, .nothing, t.owed.length⟩ ∧ t.reply = s.reply))

/-- PLAIN_WRITE (R129, R139, R146, R161): a write by a requester with the right to a plain word, to a view word that
stands for itself, or of any but the RESTART value to 009h, reaches memory as issued on its lanes and changes no owner.
So does one outside the window, by anyone in any sequencer state, and it changes not even the lock.

PARTIAL_COMMAND (R136): a command word written with the right on fewer than four lanes passes unchanged and is not
taken; PARTIAL_COMMAND is raised with the word reached and the value of the enabled lanes. -/
def Obligations.PlainAndPartialWritesReachMemoryAsIssued : Prop :=
  (∀ (s : State) (r : Requester) (lanes : Lanes) (data : Word32) (lock : Bool),
      (∀ off : Offset, Serving s → mayWrite (s.reach off).place r = true →
        (s.reach off).place = .setupPlain ∨ (s.reach off).place = .statusPlain ∨ (s.reach off).place = .openPlain ∨
          (∃ p, (s.reach off).place = .blockPlain p) ∨ (∃ n, (s.reach off).place = .destination n) ∨
          (∃ n, (s.reach off).place = .caller n) ∨
          (∃ p i, (s.reach off).place = .view p i ∧ (i ≠ 0 ∨ lanes ≠ fullLanes)) ∨
          ((s.reach off).place = .restart ∧ lanes = fullLanes ∧ data ≠ Config.restartValue) →
        ∃ t, exec (.plainWrite r (s.addr off) lanes data lock) s = .next t ∧ t.posts = s.posts ∧ t.owed = s.owed ∧
          WriteDone s s t (s.writeTxn r off lanes data lock) (s.reach off).offset lanes data) ∧
      ∀ addr : BusAddr, s.held = none → s.bus = [] → s.mem.wf = true → windowOffset s.straps.wbase addr = none →
        ∃ t, exec (.plainWrite r addr lanes data lock) s = .next t ∧
          t = { s with held := t.held, mem := t.mem, reply := t.reply } ∧
          WriteLands s t ⟨busCode r, addr, true, lanes, data, lock⟩ addr lanes data) ∧
  (∀ (s : State) (r : Requester) (off : Offset) (lanes : Lanes) (data : Word32) (lock : Bool),
      Serving s → lanes ≠ fullLanes → (s.reach off).place.isCommand = true → mayWrite (s.reach off).place r = true →
      ∃ t, exec (.partialCommand r off lanes data lock) s = .next t ∧
        WriteDone s (s.raiseFault ⟨.partialCommand, some r, (s.reach off).offset, mergeLanes lanes data 0⟩) t
          (s.writeTxn r off lanes data lock) (s.reach off).offset lanes data)

/-- LOCKED_READ and READ_WITHOUT_LOCK (R133, R150, R168): in RUN a window read changes nothing but the lock, and returns
the owner's value of an overlaid word or memory's word at the word reached; while issues are owed it waits.

A read outside the window, by anyone in any sequencer state (R129): memory's word is returned, it does not wait for RUN,
and the lock stays with LOCK and without; while issues are owed it waits as well (R167). -/
def Obligations.ReadsChangeNothingButTheLock : Prop :=
  (∀ (s : State) (r : Requester) (off : Offset) (lanes : Lanes), Serving s →
    let word : Offset := (s.reach off).offset
    let data : Word32 := (s.overlay (placeOf word)).getD (s.mem.readWord (s.addr word))
    let answered (lock : Option Lock) (locked : Bool) : State :=
      if s.owed = [] then { s with lock := lock, reply := some data }
      else { s with
        lock := lock
        held := some ⟨readTxn r (s.addr off) lanes locked, .read (s.addr word) (some word), s.owed.length⟩ }
    exec (.lockedRead r (s.addr off) lanes) s = .next (answered (some ⟨r, word⟩) true) ∧
    exec (.readWithoutLock r (s.addr off) lanes) s =
      .next (answered (if s.lock.map Lock.offset = some word then s.lock else none) false)) ∧
  ∀ (s : State) (r : Requester) (addr : BusAddr) (lanes : Lanes), s.held = none → s.bus = [] →
    windowOffset s.straps.wbase addr = none →
    let answered (locked : Bool) : State :=
      if s.owed = [] then { s with reply := some (s.mem.readWord addr) }
      else { s with held := some ⟨readTxn r addr lanes locked, .read addr none, s.owed.length⟩ }
    exec (.lockedRead r addr lanes) s = .next (answered true) ∧
    exec (.readWithoutLock r addr lanes) s = .next (answered false)

/-- The lock state after each window transaction in RUN (R168): a read with LOCK begins a sequence; the completing write
ends it; one without LOCK that reaches another word abandons it; any other leaves it. A RESTART whose write has completed
leaves RUN, and the lock state is none (R172). -/
def Obligations.LockStateFollowsEachTransaction : Prop :=
  ∀ (c : Instr) (s t : State) (txn : Txn) (off : Offset), Serving s → busTxn s c = some txn →
    windowOffset s.straps.wbase txn.addr = some off → exec c s = .next t →
    let word : Offset := (s.reach off).offset
    let r : Requester := requesterOf txn
    (t.seq ≠ .run → t.lock = none) ∧
    (t.seq = .run →
      (txn.write = false → txn.lock = true → t.lock = some ⟨r, word⟩) ∧
      (∀ l : Lock, s.lock = some l →
        (txn.write = true → txn.lock = true → l = ⟨r, word⟩ → t.lock = none) ∧
        (txn.write = true → txn.lock = true → l ≠ ⟨r, word⟩ → t.lock = some l) ∧
        (txn.lock = false → l.offset ≠ word → t.lock = none) ∧
        (txn.lock = false → l.offset = word → t.lock = some l)) ∧
      (s.lock = none → txn.write = true ∨ txn.lock = false → t.lock = none))

/-- What the words the part owns read as, field by field (R149, R200): DISPOSITION (R151), TIMING (R110), STATUS (R97),
the stack view (R152), MODE status (R128), ATTENTION, the queue summary (R69), CALL CLOCK (R154), the FAULT words (R155),
the counters (R71), and the rank view with its order: by score from the greatest, equal scores in the order of the
answer list (R68). A TIMING word reads 0 seconds left for a deadline that has come and is not taken yet, which is the
model's choice (log entry 28). -/
def Obligations.OverlaidWordsReadTheOwnersState : Prop :=
  ∀ s : State,
    let reads (off : Offset) (value : Nat) : Prop := (s.overlay (placeOf off)).map BitVec.toNat = some value
    let bit (b : Bool) : Nat := if b then 1 else 0
    let code (d : Disp) : Nat :=
      match d with
      | .free => 0
      | .queued => 1
      | .presented => 2
      | .talking => 3
      | .split => 4
      | .held => 5
      | .extended => 6
      | .camped => 7
      | .recall => 8
    let place (o : Option PosNo) : Nat := (o.map fun p => p.val).getD 15
    let slotNo (o : Option SlotNo) : Nat := (o.map fun n => n.val).getD 255
    (∀ n : SlotNo,
      let sl : Slot := s.slot n
      let saved : Nat := (sl.savedClass.map BitVec.toNat).getD 15
      let kind : Nat := if sl.returnKind = none then 0 else if sl.returnKind = some .queued then 1 else 2
      let left : Nat := (sl.deadline.map fun d => ((d.toNat + 65536 - s.callTicks.toNat) % 65536 + 9) / 10).getD 0
      let score : Nat := ((s.answerList.find? fun e => decide (e.slot = n)).map fun e => e.score.toNat).getD 0
      reads (slotOffset n 2) (code sl.disp + 2 ^ 4 * place sl.position + 2 ^ 8 * place sl.home + 2 ^ 12 * saved +
        2 ^ 16 * sl.group.val + 2 ^ 21 * sl.recalls.toNat + 2 ^ 24 * bit sl.final + 2 ^ 25 * bit sl.breakIn +
        2 ^ 26 * kind) ∧
      (NotBehind s.callTicks sl.deadline →
        reads (slotOffset n 3) (sl.elapsed.toNat + 2 ^ 16 * left + 2 ^ 24 * score))) ∧
    (∀ p : PosNo, (s.pos p).stack.length ≤ 4 → s.readyList.Nodup →
      let q : Position := s.pos p
      let state : Nat :=
        match q.state with
        | .closed => 0
        | .ready => 1
        | .presenting => 2
        | .engaged => 3
        | .wrapup => 4
      let current : Option SlotNo :=
        if q.state = .engaged then q.talking else if q.state = .presenting then q.presented else none
      let threshold : Nat := (q.threshold.map BitVec.toNat).getD 0
      let inList : Nat := if p ∈ s.readyList then s.readyList.idxOf p + 1 else 0
      reads (blockOffset p 1) (state + 2 ^ 3 * bit q.closePending + 2 ^ 4 * q.misses.toNat + 2 ^ 7 * q.stack.length +
        2 ^ 10 * threshold + 2 ^ 13 * inList + 2 ^ 16 * slotNo current + 2 ^ 24 * slotNo q.presented)) ∧
    (∀ (p : PosNo) (k : Fin 4), reads (blockOffset p (2 + k.val))
      (((s.pos p).stack[k.val]?.map fun e => e.slot.val + 2 ^ 8 * e.threshold.toNat).getD 255)) ∧
    reads 0x010 ((if s.actual = .day then 1 else if s.actual = .night then 2 else 3) +
      2 ^ 2 * (if s.requested = .day then 1 else 2) + 2 ^ 4 * bit s.nightPending +
      2 ^ 8 * (if s.resetCause = .power then 1 else if s.resetCause = .pin then 2 else 3) +
      2 ^ 12 * (if s.seq = .fill then 1 else if s.seq = .sweep then 2 else 3)) ∧
    reads 0x011 s.latched.toNat ∧
    (s.answerList.length ≤ 128 →
      let waits (e : Listed) : Bool := decide ((s.slot e.slot).disp = .queued ∨ (s.slot e.slot).disp = .recall)
      reads 0x012 (s.answerList.length + 2 ^ 8 * s.answerList.countP waits +
        2 ^ 16 * slotNo (s.bestCandidate.map Listed.slot) +
        2 ^ 24 * (s.bestCandidate.map fun e => e.score.toNat).getD 0)) ∧
    reads 0x013 (s.callTicks.toNat + 2 ^ 16 * s.cadence.val) ∧
    (s.fault = none → reads 0x014 (2 ^ 16 * 255) ∧ reads 0x015 0 ∧ reads 0x016 0) ∧
    (∀ f : FaultEntry, s.fault = some f →
      let cause : Nat :=
        match f.cause with
        | .strayWrite => 1
        | .partialCommand => 2
        | .lineRefused => 3
        | .sweepDiscard => 4
      reads 0x014 (1 + 2 ^ 8 * cause + 2 ^ 16 * ((f.requester.map fun r => (busCode r).toNat).getD 255) +
        2 ^ 24 * s.overflow.toNat) ∧
      reads 0x015 f.offset.toNat ∧ reads 0x016 f.value.toNat) ∧
    (∀ g : GroupNo,
      reads (BitVec.ofNat 11 (0x080 + 2 * g.val)) ((s.counts g).offered.toNat + 2 ^ 16 * (s.counts g).answered.toNat) ∧
      reads (BitVec.ofNat 11 (0x081 + 2 * g.val))
        ((s.counts g).abandoned.toNat + 2 ^ 16 * (s.counts g).recalled.toNat)) ∧
    ∃ ranked : List Listed,
      ranked.Pairwise (fun a b => b.score ≤ a.score) ∧
      (∀ u : Score, (ranked.filter fun e => decide (e.score = u)) = s.answerList.filter fun e => decide (e.score = u)) ∧
      ∀ k : Fin 32, reads (BitVec.ofNat 11 (0x020 + k.val))
        ((ranked[k.val]?.map fun e =>
          e.slot.val + 2 ^ 8 * e.score.toNat + 2 ^ 16 * code (s.slot e.slot).disp).getD 255)

/-! The Posting Queue and the S-side (chapter 9). -/

/-- The words an event gives the Posting Queue come in ascending offset, each with its value after the event (R163,
R164, R171); a FAULT word that reads as before is given too when the record is filled or cleared, which is the model's
choice (log entry 27). They are given to the queue as the event leaves it. Where the event's own write carries a posted
word (R170), the entry of that word is removed first and the word is not given, and then the others join: that the removal
comes first is the model's choice (log entry 8).

Words given to the Posting Queue with room for them (R164): a word that has an entry has its value replaced in its
place, the others join as the youngest in the order given, and nothing is owed.

A new word given to a full queue (R167, R169): the oldest entry that may issue, passing over that of the locked word,
becomes an owed issue, and the new entry joins as the youngest. New words given together join one after another
(R171). -/
def Obligations.PostingQueueTakesTheWordsGiven : Prop :=
  (∀ s t : State,
      let given : List Post := changedPosts s t
      (given.map fun e => e.offset.toNat).Pairwise (· < ·) ∧
      (∀ e : Post, e ∈ given ↔ Given s t e.offset ∧ e.value = t.postedValue e.offset) ∧
      t.posting s = t.givePosts given ∧
      ∀ off : Offset, t.postingExcept s off =
        State.givePosts { t with posts := t.posts.filter fun e => decide (e.offset ≠ off) }
          (given.filter fun e => decide (e.offset ≠ off))) ∧
  (∀ (s : State) (given : List Post), (given.map Post.offset).Nodup →
      let fresh := given.filter fun g => decide (g.offset ∉ s.posts.map Post.offset)
      s.posts.length + fresh.length ≤ 16 →
      ∃ kept : List Post, s.givePosts given = { s with posts := kept ++ fresh } ∧
        kept.map Post.offset = s.posts.map Post.offset ∧
        ∀ (i : Nat) (e : Post), s.posts[i]? = some e →
          (∀ g ∈ given, g.offset = e.offset → kept[i]? = some g) ∧
          (e.offset ∉ given.map Post.offset → kept[i]? = some e)) ∧
  (∀ (s : State) (g : Post) (before after : List Post) (oldest : Post), s.posts = before ++ oldest :: after →
      s.posts.length = 16 → g.offset ∉ s.posts.map Post.offset →
      (∀ e ∈ before, s.lock.map Lock.offset = some e.offset) → s.lock.map Lock.offset ≠ some oldest.offset →
      s.givePosts [g] = { s with posts := before ++ after ++ [g], owed := s.owed ++ [oldest] }) ∧
  ∀ (s : State) (given : List Post) (g : Post), ((given ++ [g]).map Post.offset).Nodup →
    g.offset ∉ s.posts.map Post.offset → s.givePosts (given ++ [g]) = (s.givePosts given).givePosts [g]

/-- POST (R165, R166, R169): in RUN, with no issue owed and no transaction waiting for its access, the oldest entry that
may issue leaves the queue and is written on all four lanes; with none that may issue there is no turn.

OWED_ISSUE (R166, R167): the oldest owed issue is written. A transaction that waits goes on waiting while issues are
owed, but for one that puts nothing on the S-side, which waits for those of its own event alone. A turn with nothing to
issue changes nothing (log entry 5).

When the wait ends with the issue, the transaction is completed in the same step, which is the model's choice (log entry
11): a write is made, a read takes its data then (R146, R150), a RESTART resets the part once its write is made (R139).
The bus is then free, and the transactions issued meanwhile are taken in their order, each as the command that puts it
there is taken. -/
def Obligations.PostsAndOwedIssuesReachMemory : Prop :=
  (∀ s : State, s.mem.wf = true →
      (∀ (before after : List Post) (e : Post), s.seq = .run → s.owed = [] → s.held = none →
        s.posts = before ++ e :: after → (∀ x ∈ before, s.lock.map Lock.offset = some x.offset) →
        s.lock.map Lock.offset ≠ some e.offset →
        ∃ t, exec .post s = .next t ∧ t = { s with posts := before ++ after, mem := t.mem } ∧
          t.mem.readWord (s.addr e.offset) = e.value ∧
          ∀ a : Nat, a / 4 ≠ (s.addr e.offset).toNat → t.mem.read a = s.mem.read a) ∧
      (s.seq ≠ .run ∨ s.owed ≠ [] ∨ s.held ≠ none ∨ (∀ x ∈ s.posts, s.lock.map Lock.offset = some x.offset) →
        exec .post s = .next s)) ∧
  (∀ s : State, s.owed = [] → exec .owedIssue s = .next s) ∧
  (∀ (s : State) (e : Post) (rest : List Post), s.mem.wf = true → s.owed = e :: rest →
      let done (t : State) : Prop := t.mem.readWord (s.addr e.offset) = e.value ∧
        ∀ a : Nat, a / 4 ≠ (s.addr e.offset).toNat → t.mem.read a = s.mem.read a
      let completes (u : State) : Prop := exec .owedIssue s = .next (s.bus.foldl State.arrive u)
      (s.held = none → ∃ t, exec .owedIssue s = .next t ∧ t = { s with owed := rest, mem := t.mem } ∧ done t) ∧
      ∀ (txn : Txn) (access : Access) (behind : Nat), s.held = some ⟨txn, access, behind⟩ →
        (rest ≠ [] → access ≠ .nothing ∨ 1 < behind →
          ∃ t, exec .owedIssue s = .next t ∧ done t ∧
            t = { s with owed := rest, held := some ⟨txn, access, behind - 1⟩, mem := t.mem }) ∧
        (access = .nothing → rest = [] ∨ behind ≤ 1 →
          ∃ u, completes u ∧ done u ∧
            u = { s with owed := rest, held := none, bus := [], reply := none, mem := u.mem }) ∧
        (∀ (addr : BusAddr) (off : Option Offset), access = .read addr off → rest = [] →
          ∃ u, completes u ∧ done u ∧
            u = { s with
              owed := [], held := none, bus := [], mem := u.mem
              reply := some ((off.bind fun o => s.overlay (placeOf o)).getD (u.mem.readWord addr)) }) ∧
        (∀ (addr : BusAddr) (lanes : Lanes) (data : Word32), rest = [] →
          let lands (u : State) : Prop :=
            u.mem.readWord addr =
              mergeLanes lanes data (if addr = s.addr e.offset then e.value else s.mem.readWord addr) ∧
            (addr ≠ s.addr e.offset → u.mem.readWord (s.addr e.offset) = e.value) ∧
            ∀ a : Nat, a / 4 ≠ (s.addr e.offset).toNat → a / 4 ≠ addr.toNat → u.mem.read a = s.mem.read a
          (access = .write addr lanes data →
            ∃ u, completes u ∧ lands u ∧
              u = { s with owed := [], held := none, bus := [], reply := none, mem := u.mem }) ∧
          (access = .restart addr data → lanes = fullLanes →
            ∃ u, completes u ∧ lands u ∧ u = { State.reset with
              pins := s.pins, straps := s.pins, resetCause := .restart, seq := .sweep, mem := u.mem
              pending := s.pending }))) ∧
  ∀ (c : Instr) (s : State) (txn : Txn), busTxn s c = some txn →
    exec c s = .next (State.arrive { s with pins := busPins s c } txn)

/-! Attention, lamps and bell (chapters 10 and 11). -/

/-- A fault fills a record that is not valid and latches FAULT; it advances the overflow count of one that is, which
holds at 15, and the first fault is kept (R186).

ACKNOWLEDGEMENT (R137, R184, R187): the causes set in lane 0, when it is enabled, leave the latched set; naming FAULT
while it is latched clears the fault record; the set that remains is written, and no entry for the word is left. -/
def Obligations.FaultRecordAndAcknowledgement : Prop :=
  (∀ (s : State) (f : FaultEntry),
      (s.fault = none →
        s.raiseFault f = { s with fault := some f, overflow := 0, latched := s.latched ||| causeFault }) ∧
      ∀ first : FaultEntry, s.fault = some first →
        s.raiseFault f = { s with overflow := if s.overflow = 15 then 15 else s.overflow + 1 }) ∧
  (∀ (s : State) (r : Requester) (lanes : Lanes) (data : Word32) (lock : Bool), Serving s → actsForConsole r = true →
      let named : BitVec 8 := if lanes.getLsbD 0 then data.extractLsb' 0 8 else 0
      let faultToo : Prop := s.latched.getLsbD 6 = true ∧ named.getLsbD 6 = true
      ∃ t, exec (.acknowledgement r lanes data lock) s = .next t ∧
        CarriedDone s { s with
            latched := s.latched &&& ~~~named
            fault := if faultToo then none else s.fault
            overflow := if faultToo then 0 else s.overflow } t
          (s.writeTxn r 0x011 lanes data lock) 0x011 ∧
        t.postedValue 0x011 = (s.latched &&& ~~~named).setWidth 32)

/-- The lamps (R173 to R176): each cadence image lane and lit image bit follows the slot's disposition and the phase.

The three outputs (R127, R179, R183): ATTN_N while a latched cause is enabled, NIGHT outside DAY and outside RUN, and
BELL by the first active source in the order ALARM, RECALL, RING, NIGHT at its phase. -/
def Obligations.LampsAndOutputsFollowTheState : Prop :=
  (∀ (s : State) (n : SlotNo),
      let code : Nat := match (s.slot n).disp with
        | .free => 0
        | .talking => 1
        | .queued => 2
        | .split => 3
        | .held => 3
        | .presented => 4
        | .recall => 4
        | .extended => 5
        | .camped => 5
      let phi : Nat := s.cadence.val % 10
      let lit : Prop :=
        code = 1 ∨ (code = 2 ∧ phi < 5) ∨ (code = 3 ∧ phi ≠ 9) ∨ (code = 4 ∧ phi % 2 = 0) ∨ (code = 5 ∧ phi = 0)
      ((s.overlay (placeOf (BitVec.ofNat 11 (0x100 + n.val / 4)))).map fun w =>
        (w.extractLsb' (8 * (n.val % 4)) 8).toNat) = some code ∧
      ((s.overlay (placeOf (BitVec.ofNat 11 (0x120 + n.val / 32)))).map fun w => w.getLsbD (n.val % 32)) =
        some (decide lit)) ∧
  (∀ s : State,
      let psi : Nat := s.cadence.val
      let recallWaits : Prop := ∃ e ∈ s.answerList, (s.slot e.slot).disp = .recall
      let rings : Prop := ∃ n : SlotNo, (s.slot n).disp = .presented ∧ (s.slot n).breakIn = false
      let nightCall : Prop := ∃ e ∈ s.answerList, ((s.slot e.slot).disp = .queued ∨ (s.slot e.slot).disp = .recall) ∧
        s.settings.nightBell ≤ (s.group (s.slot e.slot).group).cls
      (s.attnAsserted = true ↔ ∃ i < 8, s.latched.getLsbD i = true ∧ s.settings.attnEnable.getLsbD i = true) ∧
      (s.nightOutput = false ↔ s.seq = .run ∧ s.actual = .day) ∧
      (s.bellOutput = true ↔ s.seq = .run ∧ s.settings.bellOn = true ∧
        ((s.actual = .lapsed ∧ psi % 2 = 0) ∨
          (s.actual = .day ∧ recallWaits ∧ (psi ≤ 4 ∨ (10 ≤ psi ∧ psi ≤ 14))) ∨
          (s.actual = .day ∧ ¬recallWaits ∧ rings ∧ psi ≤ 9) ∨
          (s.actual = .night ∧ nightCall ∧ psi ≤ 19))))
end

