-- ==== Sys2Proof/Laws/Clock.lean ====
section
/-! SUPPORT. When a call tick finds nothing left to take: the events of the tick before it are then no change. -/

namespace Sys2Proof.Machine

open Sys2Proof.Safety

theorem foldl_unchanged {α β : Type} (f : β → α → β) (b : β) (l : List α) (h : ∀ a, f b a = b) : l.foldl f b = b := by
  induction l with
  | nil => rfl
  | cons a l ih => rw [List.foldl_cons, h, ih]

theorem recallExpiry_of_not {s : State} {n : SlotNo} {d : Disp} (h : s.slotExpires n d = false) :
    s.recallExpiry n d = s := by simp [State.recallExpiry, h]

theorem presentationExpires_of_not {s : State} {n : SlotNo} (h : s.slotExpires n .presented = false) :
    s.presentationExpires n = s := by unfold State.presentationExpires; split <;> simp [h]

theorem offerExpires_of_not {s : State} {n : SlotNo} (h : s.slotExpires n .presented = false) :
    s.offerExpires n = s := by unfold State.offerExpires; split <;> simp [h]

theorem slotDue_of_not {s : State} {n : SlotNo} (h : ∀ d, s.slotExpires n d = false) : s.slotDue n = s := by
  unfold State.slotDue
  split <;> simp [presentationExpires_of_not, offerExpires_of_not, recallExpiry_of_not, h]

/-- Taking what is due changes nothing when each part of it is no change. -/
theorem takeDue_of_unchanged {s : State} (h1 : ∀ n, s.slotDue n = s) (h2 : ∀ p, s.wrapUpExpires p = s)
    (h3 : s.supervisionExpires = s) (h4 : s.queueSecond = s) (h5 : s.slotSecond = s) : s.takeDue = s := by
  simp only [State.takeDue, foldl_unchanged _ _ _ h1, foldl_unchanged _ _ _ h2, h3, h4, h5]

/-- With nothing due, taking what is due changes nothing. -/
theorem takeDue_of_nothingFound {s : State} (h : NothingFound s) : s.takeDue = s :=
  takeDue_of_unchanged (fun n => slotDue_of_not fun d => by simp [State.slotExpires, h.1 n])
    (fun p => by simp [State.wrapUpExpires, h.2.1 p]) (by simp [State.supervisionExpires, h.2.2.1])
    (by simp [State.queueSecond, h.2.2.2.1]) (by simp [State.slotSecond, h.2.2.2.2])

/-- In FILL and SWEEP no tick is delivered, and nothing is due (R102). -/
theorem takeDue_of_startUp {s : State} (h : s.seq ≠ .run) : s.takeDue = s :=
  takeDue_of_unchanged (fun n => slotDue_of_not fun d => by simp [State.slotExpires, h])
    (fun p => by simp [State.wrapUpExpires, h]) (by simp [State.supervisionExpires, h])
    (by simp [State.queueSecond, h]) (by simp [State.slotSecond, h])

/-- A call tick with nothing due is the tick's own change alone. -/
theorem callTick_of_nothingFound {s : State} (h : NothingFound s) : s.callTick = s.tick := by
  rw [State.callTick, takeDue_of_nothingFound h]

theorem callTick_of_startUp {s : State} (h : s.seq ≠ .run) : s.callTick = s.tick := by
  rw [State.callTick, takeDue_of_startUp h]

end Sys2Proof.Machine
end

