-- ==== Sys2Proof/Laws/State.lean ====
section
/-! SUPPORT. What each primitive update of State leaves: one lemma for each field it does not change, and what it makes
of the records it does. -/

namespace Sys2Proof.Machine

@[simp] theorem State.setSlot_pins (s : State) (n : SlotNo) (v : Slot) : (s.setSlot n v).pins = s.pins := rfl
@[simp] theorem State.setSlot_straps (s : State) (n : SlotNo) (v : Slot) : (s.setSlot n v).straps = s.straps := rfl
@[simp] theorem State.setSlot_lock (s : State) (n : SlotNo) (v : Slot) : (s.setSlot n v).lock = s.lock := rfl
@[simp] theorem State.setSlot_settings (s : State) (n : SlotNo) (v : Slot) : (s.setSlot n v).settings = s.settings := rfl
@[simp] theorem State.setSlot_bus (s : State) (n : SlotNo) (v : Slot) : (s.setSlot n v).bus = s.bus := rfl
@[simp] theorem State.setSlot_held (s : State) (n : SlotNo) (v : Slot) : (s.setSlot n v).held = s.held := rfl
@[simp] theorem State.setSlot_reply (s : State) (n : SlotNo) (v : Slot) : (s.setSlot n v).reply = s.reply := rfl
@[simp] theorem State.setSlot_secondAtSlots (s : State) (n : SlotNo) (v : Slot) : (s.setSlot n v).secondAtSlots = s.secondAtSlots := rfl
@[simp] theorem State.setSlot_answerList (s : State) (n : SlotNo) (v : Slot) : (s.setSlot n v).answerList = s.answerList := rfl
@[simp] theorem State.setSlot_counters (s : State) (n : SlotNo) (v : Slot) : (s.setSlot n v).counters = s.counters := rfl
@[simp] theorem State.setSlot_secondAtQueue (s : State) (n : SlotNo) (v : Slot) : (s.setSlot n v).secondAtQueue = s.secondAtQueue := rfl
@[simp] theorem State.setSlot_positions (s : State) (n : SlotNo) (v : Slot) : (s.setSlot n v).positions = s.positions := rfl
@[simp] theorem State.setSlot_readyList (s : State) (n : SlotNo) (v : Slot) : (s.setSlot n v).readyList = s.readyList := rfl
@[simp] theorem State.setSlot_prescaler (s : State) (n : SlotNo) (v : Slot) : (s.setSlot n v).prescaler = s.prescaler := rfl
@[simp] theorem State.setSlot_callTicks (s : State) (n : SlotNo) (v : Slot) : (s.setSlot n v).callTicks = s.callTicks := rfl
@[simp] theorem State.setSlot_divider (s : State) (n : SlotNo) (v : Slot) : (s.setSlot n v).divider = s.divider := rfl
@[simp] theorem State.setSlot_cadence (s : State) (n : SlotNo) (v : Slot) : (s.setSlot n v).cadence = s.cadence := rfl
@[simp] theorem State.setSlot_actual (s : State) (n : SlotNo) (v : Slot) : (s.setSlot n v).actual = s.actual := rfl
@[simp] theorem State.setSlot_requested (s : State) (n : SlotNo) (v : Slot) : (s.setSlot n v).requested = s.requested := rfl
@[simp] theorem State.setSlot_nightPending (s : State) (n : SlotNo) (v : Slot) : (s.setSlot n v).nightPending = s.nightPending := rfl
@[simp] theorem State.setSlot_supervision (s : State) (n : SlotNo) (v : Slot) : (s.setSlot n v).supervision = s.supervision := rfl
@[simp] theorem State.setSlot_resetCause (s : State) (n : SlotNo) (v : Slot) : (s.setSlot n v).resetCause = s.resetCause := rfl
@[simp] theorem State.setSlot_latched (s : State) (n : SlotNo) (v : Slot) : (s.setSlot n v).latched = s.latched := rfl
@[simp] theorem State.setSlot_fault (s : State) (n : SlotNo) (v : Slot) : (s.setSlot n v).fault = s.fault := rfl
@[simp] theorem State.setSlot_overflow (s : State) (n : SlotNo) (v : Slot) : (s.setSlot n v).overflow = s.overflow := rfl
@[simp] theorem State.setSlot_posts (s : State) (n : SlotNo) (v : Slot) : (s.setSlot n v).posts = s.posts := rfl
@[simp] theorem State.setSlot_owed (s : State) (n : SlotNo) (v : Slot) : (s.setSlot n v).owed = s.owed := rfl
@[simp] theorem State.setSlot_seq (s : State) (n : SlotNo) (v : Slot) : (s.setSlot n v).seq = s.seq := rfl
@[simp] theorem State.setSlot_stage (s : State) (n : SlotNo) (v : Slot) : (s.setSlot n v).stage = s.stage := rfl
@[simp] theorem State.setSlot_mem (s : State) (n : SlotNo) (v : Slot) : (s.setSlot n v).mem = s.mem := rfl
@[simp] theorem State.setSlot_pending (s : State) (n : SlotNo) (v : Slot) : (s.setSlot n v).pending = s.pending := rfl

@[simp] theorem State.setPos_pins (s : State) (p : PosNo) (v : Position) : (s.setPos p v).pins = s.pins := rfl
@[simp] theorem State.setPos_straps (s : State) (p : PosNo) (v : Position) : (s.setPos p v).straps = s.straps := rfl
@[simp] theorem State.setPos_lock (s : State) (p : PosNo) (v : Position) : (s.setPos p v).lock = s.lock := rfl
@[simp] theorem State.setPos_settings (s : State) (p : PosNo) (v : Position) : (s.setPos p v).settings = s.settings := rfl
@[simp] theorem State.setPos_bus (s : State) (p : PosNo) (v : Position) : (s.setPos p v).bus = s.bus := rfl
@[simp] theorem State.setPos_held (s : State) (p : PosNo) (v : Position) : (s.setPos p v).held = s.held := rfl
@[simp] theorem State.setPos_reply (s : State) (p : PosNo) (v : Position) : (s.setPos p v).reply = s.reply := rfl
@[simp] theorem State.setPos_slots (s : State) (p : PosNo) (v : Position) : (s.setPos p v).slots = s.slots := rfl
@[simp] theorem State.setPos_secondAtSlots (s : State) (p : PosNo) (v : Position) : (s.setPos p v).secondAtSlots = s.secondAtSlots := rfl
@[simp] theorem State.setPos_answerList (s : State) (p : PosNo) (v : Position) : (s.setPos p v).answerList = s.answerList := rfl
@[simp] theorem State.setPos_counters (s : State) (p : PosNo) (v : Position) : (s.setPos p v).counters = s.counters := rfl
@[simp] theorem State.setPos_secondAtQueue (s : State) (p : PosNo) (v : Position) : (s.setPos p v).secondAtQueue = s.secondAtQueue := rfl
@[simp] theorem State.setPos_readyList (s : State) (p : PosNo) (v : Position) : (s.setPos p v).readyList = s.readyList := rfl
@[simp] theorem State.setPos_prescaler (s : State) (p : PosNo) (v : Position) : (s.setPos p v).prescaler = s.prescaler := rfl
@[simp] theorem State.setPos_callTicks (s : State) (p : PosNo) (v : Position) : (s.setPos p v).callTicks = s.callTicks := rfl
@[simp] theorem State.setPos_divider (s : State) (p : PosNo) (v : Position) : (s.setPos p v).divider = s.divider := rfl
@[simp] theorem State.setPos_cadence (s : State) (p : PosNo) (v : Position) : (s.setPos p v).cadence = s.cadence := rfl
@[simp] theorem State.setPos_actual (s : State) (p : PosNo) (v : Position) : (s.setPos p v).actual = s.actual := rfl
@[simp] theorem State.setPos_requested (s : State) (p : PosNo) (v : Position) : (s.setPos p v).requested = s.requested := rfl
@[simp] theorem State.setPos_nightPending (s : State) (p : PosNo) (v : Position) : (s.setPos p v).nightPending = s.nightPending := rfl
@[simp] theorem State.setPos_supervision (s : State) (p : PosNo) (v : Position) : (s.setPos p v).supervision = s.supervision := rfl
@[simp] theorem State.setPos_resetCause (s : State) (p : PosNo) (v : Position) : (s.setPos p v).resetCause = s.resetCause := rfl
@[simp] theorem State.setPos_latched (s : State) (p : PosNo) (v : Position) : (s.setPos p v).latched = s.latched := rfl
@[simp] theorem State.setPos_fault (s : State) (p : PosNo) (v : Position) : (s.setPos p v).fault = s.fault := rfl
@[simp] theorem State.setPos_overflow (s : State) (p : PosNo) (v : Position) : (s.setPos p v).overflow = s.overflow := rfl
@[simp] theorem State.setPos_posts (s : State) (p : PosNo) (v : Position) : (s.setPos p v).posts = s.posts := rfl
@[simp] theorem State.setPos_owed (s : State) (p : PosNo) (v : Position) : (s.setPos p v).owed = s.owed := rfl
@[simp] theorem State.setPos_seq (s : State) (p : PosNo) (v : Position) : (s.setPos p v).seq = s.seq := rfl
@[simp] theorem State.setPos_stage (s : State) (p : PosNo) (v : Position) : (s.setPos p v).stage = s.stage := rfl
@[simp] theorem State.setPos_mem (s : State) (p : PosNo) (v : Position) : (s.setPos p v).mem = s.mem := rfl
@[simp] theorem State.setPos_pending (s : State) (p : PosNo) (v : Position) : (s.setPos p v).pending = s.pending := rfl

@[simp] theorem State.setCounts_pins (s : State) (g : GroupNo) (v : Counters) : (s.setCounts g v).pins = s.pins := rfl
@[simp] theorem State.setCounts_straps (s : State) (g : GroupNo) (v : Counters) : (s.setCounts g v).straps = s.straps := rfl
@[simp] theorem State.setCounts_lock (s : State) (g : GroupNo) (v : Counters) : (s.setCounts g v).lock = s.lock := rfl
@[simp] theorem State.setCounts_settings (s : State) (g : GroupNo) (v : Counters) : (s.setCounts g v).settings = s.settings := rfl
@[simp] theorem State.setCounts_bus (s : State) (g : GroupNo) (v : Counters) : (s.setCounts g v).bus = s.bus := rfl
@[simp] theorem State.setCounts_held (s : State) (g : GroupNo) (v : Counters) : (s.setCounts g v).held = s.held := rfl
@[simp] theorem State.setCounts_reply (s : State) (g : GroupNo) (v : Counters) : (s.setCounts g v).reply = s.reply := rfl
@[simp] theorem State.setCounts_slots (s : State) (g : GroupNo) (v : Counters) : (s.setCounts g v).slots = s.slots := rfl
@[simp] theorem State.setCounts_secondAtSlots (s : State) (g : GroupNo) (v : Counters) : (s.setCounts g v).secondAtSlots = s.secondAtSlots := rfl
@[simp] theorem State.setCounts_answerList (s : State) (g : GroupNo) (v : Counters) : (s.setCounts g v).answerList = s.answerList := rfl
@[simp] theorem State.setCounts_secondAtQueue (s : State) (g : GroupNo) (v : Counters) : (s.setCounts g v).secondAtQueue = s.secondAtQueue := rfl
@[simp] theorem State.setCounts_positions (s : State) (g : GroupNo) (v : Counters) : (s.setCounts g v).positions = s.positions := rfl
@[simp] theorem State.setCounts_readyList (s : State) (g : GroupNo) (v : Counters) : (s.setCounts g v).readyList = s.readyList := rfl
@[simp] theorem State.setCounts_prescaler (s : State) (g : GroupNo) (v : Counters) : (s.setCounts g v).prescaler = s.prescaler := rfl
@[simp] theorem State.setCounts_callTicks (s : State) (g : GroupNo) (v : Counters) : (s.setCounts g v).callTicks = s.callTicks := rfl
@[simp] theorem State.setCounts_divider (s : State) (g : GroupNo) (v : Counters) : (s.setCounts g v).divider = s.divider := rfl
@[simp] theorem State.setCounts_cadence (s : State) (g : GroupNo) (v : Counters) : (s.setCounts g v).cadence = s.cadence := rfl
@[simp] theorem State.setCounts_actual (s : State) (g : GroupNo) (v : Counters) : (s.setCounts g v).actual = s.actual := rfl
@[simp] theorem State.setCounts_requested (s : State) (g : GroupNo) (v : Counters) : (s.setCounts g v).requested = s.requested := rfl
@[simp] theorem State.setCounts_nightPending (s : State) (g : GroupNo) (v : Counters) : (s.setCounts g v).nightPending = s.nightPending := rfl
@[simp] theorem State.setCounts_supervision (s : State) (g : GroupNo) (v : Counters) : (s.setCounts g v).supervision = s.supervision := rfl
@[simp] theorem State.setCounts_resetCause (s : State) (g : GroupNo) (v : Counters) : (s.setCounts g v).resetCause = s.resetCause := rfl
@[simp] theorem State.setCounts_latched (s : State) (g : GroupNo) (v : Counters) : (s.setCounts g v).latched = s.latched := rfl
@[simp] theorem State.setCounts_fault (s : State) (g : GroupNo) (v : Counters) : (s.setCounts g v).fault = s.fault := rfl
@[simp] theorem State.setCounts_overflow (s : State) (g : GroupNo) (v : Counters) : (s.setCounts g v).overflow = s.overflow := rfl
@[simp] theorem State.setCounts_posts (s : State) (g : GroupNo) (v : Counters) : (s.setCounts g v).posts = s.posts := rfl
@[simp] theorem State.setCounts_owed (s : State) (g : GroupNo) (v : Counters) : (s.setCounts g v).owed = s.owed := rfl
@[simp] theorem State.setCounts_seq (s : State) (g : GroupNo) (v : Counters) : (s.setCounts g v).seq = s.seq := rfl
@[simp] theorem State.setCounts_stage (s : State) (g : GroupNo) (v : Counters) : (s.setCounts g v).stage = s.stage := rfl
@[simp] theorem State.setCounts_mem (s : State) (g : GroupNo) (v : Counters) : (s.setCounts g v).mem = s.mem := rfl
@[simp] theorem State.setCounts_pending (s : State) (g : GroupNo) (v : Counters) : (s.setCounts g v).pending = s.pending := rfl

@[simp] theorem State.latch_pins (s : State) (c : BitVec 8) : (s.latch c).pins = s.pins := rfl
@[simp] theorem State.latch_straps (s : State) (c : BitVec 8) : (s.latch c).straps = s.straps := rfl
@[simp] theorem State.latch_lock (s : State) (c : BitVec 8) : (s.latch c).lock = s.lock := rfl
@[simp] theorem State.latch_settings (s : State) (c : BitVec 8) : (s.latch c).settings = s.settings := rfl
@[simp] theorem State.latch_bus (s : State) (c : BitVec 8) : (s.latch c).bus = s.bus := rfl
@[simp] theorem State.latch_held (s : State) (c : BitVec 8) : (s.latch c).held = s.held := rfl
@[simp] theorem State.latch_reply (s : State) (c : BitVec 8) : (s.latch c).reply = s.reply := rfl
@[simp] theorem State.latch_slots (s : State) (c : BitVec 8) : (s.latch c).slots = s.slots := rfl
@[simp] theorem State.latch_secondAtSlots (s : State) (c : BitVec 8) : (s.latch c).secondAtSlots = s.secondAtSlots := rfl
@[simp] theorem State.latch_answerList (s : State) (c : BitVec 8) : (s.latch c).answerList = s.answerList := rfl
@[simp] theorem State.latch_counters (s : State) (c : BitVec 8) : (s.latch c).counters = s.counters := rfl
@[simp] theorem State.latch_secondAtQueue (s : State) (c : BitVec 8) : (s.latch c).secondAtQueue = s.secondAtQueue := rfl
@[simp] theorem State.latch_positions (s : State) (c : BitVec 8) : (s.latch c).positions = s.positions := rfl
@[simp] theorem State.latch_readyList (s : State) (c : BitVec 8) : (s.latch c).readyList = s.readyList := rfl
@[simp] theorem State.latch_prescaler (s : State) (c : BitVec 8) : (s.latch c).prescaler = s.prescaler := rfl
@[simp] theorem State.latch_callTicks (s : State) (c : BitVec 8) : (s.latch c).callTicks = s.callTicks := rfl
@[simp] theorem State.latch_divider (s : State) (c : BitVec 8) : (s.latch c).divider = s.divider := rfl
@[simp] theorem State.latch_cadence (s : State) (c : BitVec 8) : (s.latch c).cadence = s.cadence := rfl
@[simp] theorem State.latch_actual (s : State) (c : BitVec 8) : (s.latch c).actual = s.actual := rfl
@[simp] theorem State.latch_requested (s : State) (c : BitVec 8) : (s.latch c).requested = s.requested := rfl
@[simp] theorem State.latch_nightPending (s : State) (c : BitVec 8) : (s.latch c).nightPending = s.nightPending := rfl
@[simp] theorem State.latch_supervision (s : State) (c : BitVec 8) : (s.latch c).supervision = s.supervision := rfl
@[simp] theorem State.latch_resetCause (s : State) (c : BitVec 8) : (s.latch c).resetCause = s.resetCause := rfl
@[simp] theorem State.latch_fault (s : State) (c : BitVec 8) : (s.latch c).fault = s.fault := rfl
@[simp] theorem State.latch_overflow (s : State) (c : BitVec 8) : (s.latch c).overflow = s.overflow := rfl
@[simp] theorem State.latch_posts (s : State) (c : BitVec 8) : (s.latch c).posts = s.posts := rfl
@[simp] theorem State.latch_owed (s : State) (c : BitVec 8) : (s.latch c).owed = s.owed := rfl
@[simp] theorem State.latch_seq (s : State) (c : BitVec 8) : (s.latch c).seq = s.seq := rfl
@[simp] theorem State.latch_stage (s : State) (c : BitVec 8) : (s.latch c).stage = s.stage := rfl
@[simp] theorem State.latch_mem (s : State) (c : BitVec 8) : (s.latch c).mem = s.mem := rfl
@[simp] theorem State.latch_pending (s : State) (c : BitVec 8) : (s.latch c).pending = s.pending := rfl

@[simp] theorem State.join_pins (s : State) (n : SlotNo) : (s.join n).pins = s.pins := rfl
@[simp] theorem State.join_straps (s : State) (n : SlotNo) : (s.join n).straps = s.straps := rfl
@[simp] theorem State.join_lock (s : State) (n : SlotNo) : (s.join n).lock = s.lock := rfl
@[simp] theorem State.join_settings (s : State) (n : SlotNo) : (s.join n).settings = s.settings := rfl
@[simp] theorem State.join_bus (s : State) (n : SlotNo) : (s.join n).bus = s.bus := rfl
@[simp] theorem State.join_held (s : State) (n : SlotNo) : (s.join n).held = s.held := rfl
@[simp] theorem State.join_reply (s : State) (n : SlotNo) : (s.join n).reply = s.reply := rfl
@[simp] theorem State.join_slots (s : State) (n : SlotNo) : (s.join n).slots = s.slots := rfl
@[simp] theorem State.join_secondAtSlots (s : State) (n : SlotNo) : (s.join n).secondAtSlots = s.secondAtSlots := rfl
@[simp] theorem State.join_counters (s : State) (n : SlotNo) : (s.join n).counters = s.counters := rfl
@[simp] theorem State.join_secondAtQueue (s : State) (n : SlotNo) : (s.join n).secondAtQueue = s.secondAtQueue := rfl
@[simp] theorem State.join_positions (s : State) (n : SlotNo) : (s.join n).positions = s.positions := rfl
@[simp] theorem State.join_readyList (s : State) (n : SlotNo) : (s.join n).readyList = s.readyList := rfl
@[simp] theorem State.join_prescaler (s : State) (n : SlotNo) : (s.join n).prescaler = s.prescaler := rfl
@[simp] theorem State.join_callTicks (s : State) (n : SlotNo) : (s.join n).callTicks = s.callTicks := rfl
@[simp] theorem State.join_divider (s : State) (n : SlotNo) : (s.join n).divider = s.divider := rfl
@[simp] theorem State.join_cadence (s : State) (n : SlotNo) : (s.join n).cadence = s.cadence := rfl
@[simp] theorem State.join_actual (s : State) (n : SlotNo) : (s.join n).actual = s.actual := rfl
@[simp] theorem State.join_requested (s : State) (n : SlotNo) : (s.join n).requested = s.requested := rfl
@[simp] theorem State.join_nightPending (s : State) (n : SlotNo) : (s.join n).nightPending = s.nightPending := rfl
@[simp] theorem State.join_supervision (s : State) (n : SlotNo) : (s.join n).supervision = s.supervision := rfl
@[simp] theorem State.join_resetCause (s : State) (n : SlotNo) : (s.join n).resetCause = s.resetCause := rfl
@[simp] theorem State.join_latched (s : State) (n : SlotNo) : (s.join n).latched = s.latched := rfl
@[simp] theorem State.join_fault (s : State) (n : SlotNo) : (s.join n).fault = s.fault := rfl
@[simp] theorem State.join_overflow (s : State) (n : SlotNo) : (s.join n).overflow = s.overflow := rfl
@[simp] theorem State.join_posts (s : State) (n : SlotNo) : (s.join n).posts = s.posts := rfl
@[simp] theorem State.join_owed (s : State) (n : SlotNo) : (s.join n).owed = s.owed := rfl
@[simp] theorem State.join_seq (s : State) (n : SlotNo) : (s.join n).seq = s.seq := rfl
@[simp] theorem State.join_stage (s : State) (n : SlotNo) : (s.join n).stage = s.stage := rfl
@[simp] theorem State.join_mem (s : State) (n : SlotNo) : (s.join n).mem = s.mem := rfl
@[simp] theorem State.join_pending (s : State) (n : SlotNo) : (s.join n).pending = s.pending := rfl

@[simp] theorem State.unlist_pins (s : State) (n : SlotNo) : (s.unlist n).pins = s.pins := rfl
@[simp] theorem State.unlist_straps (s : State) (n : SlotNo) : (s.unlist n).straps = s.straps := rfl
@[simp] theorem State.unlist_lock (s : State) (n : SlotNo) : (s.unlist n).lock = s.lock := rfl
@[simp] theorem State.unlist_settings (s : State) (n : SlotNo) : (s.unlist n).settings = s.settings := rfl
@[simp] theorem State.unlist_bus (s : State) (n : SlotNo) : (s.unlist n).bus = s.bus := rfl
@[simp] theorem State.unlist_held (s : State) (n : SlotNo) : (s.unlist n).held = s.held := rfl
@[simp] theorem State.unlist_reply (s : State) (n : SlotNo) : (s.unlist n).reply = s.reply := rfl
@[simp] theorem State.unlist_slots (s : State) (n : SlotNo) : (s.unlist n).slots = s.slots := rfl
@[simp] theorem State.unlist_secondAtSlots (s : State) (n : SlotNo) : (s.unlist n).secondAtSlots = s.secondAtSlots := rfl
@[simp] theorem State.unlist_counters (s : State) (n : SlotNo) : (s.unlist n).counters = s.counters := rfl
@[simp] theorem State.unlist_secondAtQueue (s : State) (n : SlotNo) : (s.unlist n).secondAtQueue = s.secondAtQueue := rfl
@[simp] theorem State.unlist_positions (s : State) (n : SlotNo) : (s.unlist n).positions = s.positions := rfl
@[simp] theorem State.unlist_readyList (s : State) (n : SlotNo) : (s.unlist n).readyList = s.readyList := rfl
@[simp] theorem State.unlist_prescaler (s : State) (n : SlotNo) : (s.unlist n).prescaler = s.prescaler := rfl
@[simp] theorem State.unlist_callTicks (s : State) (n : SlotNo) : (s.unlist n).callTicks = s.callTicks := rfl
@[simp] theorem State.unlist_divider (s : State) (n : SlotNo) : (s.unlist n).divider = s.divider := rfl
@[simp] theorem State.unlist_cadence (s : State) (n : SlotNo) : (s.unlist n).cadence = s.cadence := rfl
@[simp] theorem State.unlist_actual (s : State) (n : SlotNo) : (s.unlist n).actual = s.actual := rfl
@[simp] theorem State.unlist_requested (s : State) (n : SlotNo) : (s.unlist n).requested = s.requested := rfl
@[simp] theorem State.unlist_nightPending (s : State) (n : SlotNo) : (s.unlist n).nightPending = s.nightPending := rfl
@[simp] theorem State.unlist_supervision (s : State) (n : SlotNo) : (s.unlist n).supervision = s.supervision := rfl
@[simp] theorem State.unlist_resetCause (s : State) (n : SlotNo) : (s.unlist n).resetCause = s.resetCause := rfl
@[simp] theorem State.unlist_latched (s : State) (n : SlotNo) : (s.unlist n).latched = s.latched := rfl
@[simp] theorem State.unlist_fault (s : State) (n : SlotNo) : (s.unlist n).fault = s.fault := rfl
@[simp] theorem State.unlist_overflow (s : State) (n : SlotNo) : (s.unlist n).overflow = s.overflow := rfl
@[simp] theorem State.unlist_posts (s : State) (n : SlotNo) : (s.unlist n).posts = s.posts := rfl
@[simp] theorem State.unlist_owed (s : State) (n : SlotNo) : (s.unlist n).owed = s.owed := rfl
@[simp] theorem State.unlist_seq (s : State) (n : SlotNo) : (s.unlist n).seq = s.seq := rfl
@[simp] theorem State.unlist_stage (s : State) (n : SlotNo) : (s.unlist n).stage = s.stage := rfl
@[simp] theorem State.unlist_mem (s : State) (n : SlotNo) : (s.unlist n).mem = s.mem := rfl
@[simp] theorem State.unlist_pending (s : State) (n : SlotNo) : (s.unlist n).pending = s.pending := rfl

@[simp] theorem State.freeSlot_pins (s : State) (n : SlotNo) : (s.freeSlot n).pins = s.pins := rfl
@[simp] theorem State.freeSlot_straps (s : State) (n : SlotNo) : (s.freeSlot n).straps = s.straps := rfl
@[simp] theorem State.freeSlot_lock (s : State) (n : SlotNo) : (s.freeSlot n).lock = s.lock := rfl
@[simp] theorem State.freeSlot_settings (s : State) (n : SlotNo) : (s.freeSlot n).settings = s.settings := rfl
@[simp] theorem State.freeSlot_bus (s : State) (n : SlotNo) : (s.freeSlot n).bus = s.bus := rfl
@[simp] theorem State.freeSlot_held (s : State) (n : SlotNo) : (s.freeSlot n).held = s.held := rfl
@[simp] theorem State.freeSlot_reply (s : State) (n : SlotNo) : (s.freeSlot n).reply = s.reply := rfl
@[simp] theorem State.freeSlot_secondAtSlots (s : State) (n : SlotNo) : (s.freeSlot n).secondAtSlots = s.secondAtSlots := rfl
@[simp] theorem State.freeSlot_counters (s : State) (n : SlotNo) : (s.freeSlot n).counters = s.counters := rfl
@[simp] theorem State.freeSlot_secondAtQueue (s : State) (n : SlotNo) : (s.freeSlot n).secondAtQueue = s.secondAtQueue := rfl
@[simp] theorem State.freeSlot_positions (s : State) (n : SlotNo) : (s.freeSlot n).positions = s.positions := rfl
@[simp] theorem State.freeSlot_readyList (s : State) (n : SlotNo) : (s.freeSlot n).readyList = s.readyList := rfl
@[simp] theorem State.freeSlot_prescaler (s : State) (n : SlotNo) : (s.freeSlot n).prescaler = s.prescaler := rfl
@[simp] theorem State.freeSlot_callTicks (s : State) (n : SlotNo) : (s.freeSlot n).callTicks = s.callTicks := rfl
@[simp] theorem State.freeSlot_divider (s : State) (n : SlotNo) : (s.freeSlot n).divider = s.divider := rfl
@[simp] theorem State.freeSlot_cadence (s : State) (n : SlotNo) : (s.freeSlot n).cadence = s.cadence := rfl
@[simp] theorem State.freeSlot_actual (s : State) (n : SlotNo) : (s.freeSlot n).actual = s.actual := rfl
@[simp] theorem State.freeSlot_requested (s : State) (n : SlotNo) : (s.freeSlot n).requested = s.requested := rfl
@[simp] theorem State.freeSlot_nightPending (s : State) (n : SlotNo) : (s.freeSlot n).nightPending = s.nightPending := rfl
@[simp] theorem State.freeSlot_supervision (s : State) (n : SlotNo) : (s.freeSlot n).supervision = s.supervision := rfl
@[simp] theorem State.freeSlot_resetCause (s : State) (n : SlotNo) : (s.freeSlot n).resetCause = s.resetCause := rfl
@[simp] theorem State.freeSlot_latched (s : State) (n : SlotNo) : (s.freeSlot n).latched = s.latched := rfl
@[simp] theorem State.freeSlot_fault (s : State) (n : SlotNo) : (s.freeSlot n).fault = s.fault := rfl
@[simp] theorem State.freeSlot_overflow (s : State) (n : SlotNo) : (s.freeSlot n).overflow = s.overflow := rfl
@[simp] theorem State.freeSlot_posts (s : State) (n : SlotNo) : (s.freeSlot n).posts = s.posts := rfl
@[simp] theorem State.freeSlot_owed (s : State) (n : SlotNo) : (s.freeSlot n).owed = s.owed := rfl
@[simp] theorem State.freeSlot_seq (s : State) (n : SlotNo) : (s.freeSlot n).seq = s.seq := rfl
@[simp] theorem State.freeSlot_stage (s : State) (n : SlotNo) : (s.freeSlot n).stage = s.stage := rfl
@[simp] theorem State.freeSlot_mem (s : State) (n : SlotNo) : (s.freeSlot n).mem = s.mem := rfl
@[simp] theorem State.freeSlot_pending (s : State) (n : SlotNo) : (s.freeSlot n).pending = s.pending := rfl

@[simp] theorem State.returnSlot_pins (s : State) (n : SlotNo) : (s.returnSlot n).pins = s.pins := rfl
@[simp] theorem State.returnSlot_straps (s : State) (n : SlotNo) : (s.returnSlot n).straps = s.straps := rfl
@[simp] theorem State.returnSlot_lock (s : State) (n : SlotNo) : (s.returnSlot n).lock = s.lock := rfl
@[simp] theorem State.returnSlot_settings (s : State) (n : SlotNo) : (s.returnSlot n).settings = s.settings := rfl
@[simp] theorem State.returnSlot_bus (s : State) (n : SlotNo) : (s.returnSlot n).bus = s.bus := rfl
@[simp] theorem State.returnSlot_held (s : State) (n : SlotNo) : (s.returnSlot n).held = s.held := rfl
@[simp] theorem State.returnSlot_reply (s : State) (n : SlotNo) : (s.returnSlot n).reply = s.reply := rfl
@[simp] theorem State.returnSlot_secondAtSlots (s : State) (n : SlotNo) : (s.returnSlot n).secondAtSlots = s.secondAtSlots := rfl
@[simp] theorem State.returnSlot_answerList (s : State) (n : SlotNo) : (s.returnSlot n).answerList = s.answerList := rfl
@[simp] theorem State.returnSlot_counters (s : State) (n : SlotNo) : (s.returnSlot n).counters = s.counters := rfl
@[simp] theorem State.returnSlot_secondAtQueue (s : State) (n : SlotNo) : (s.returnSlot n).secondAtQueue = s.secondAtQueue := rfl
@[simp] theorem State.returnSlot_positions (s : State) (n : SlotNo) : (s.returnSlot n).positions = s.positions := rfl
@[simp] theorem State.returnSlot_readyList (s : State) (n : SlotNo) : (s.returnSlot n).readyList = s.readyList := rfl
@[simp] theorem State.returnSlot_prescaler (s : State) (n : SlotNo) : (s.returnSlot n).prescaler = s.prescaler := rfl
@[simp] theorem State.returnSlot_callTicks (s : State) (n : SlotNo) : (s.returnSlot n).callTicks = s.callTicks := rfl
@[simp] theorem State.returnSlot_divider (s : State) (n : SlotNo) : (s.returnSlot n).divider = s.divider := rfl
@[simp] theorem State.returnSlot_cadence (s : State) (n : SlotNo) : (s.returnSlot n).cadence = s.cadence := rfl
@[simp] theorem State.returnSlot_actual (s : State) (n : SlotNo) : (s.returnSlot n).actual = s.actual := rfl
@[simp] theorem State.returnSlot_requested (s : State) (n : SlotNo) : (s.returnSlot n).requested = s.requested := rfl
@[simp] theorem State.returnSlot_nightPending (s : State) (n : SlotNo) : (s.returnSlot n).nightPending = s.nightPending := rfl
@[simp] theorem State.returnSlot_supervision (s : State) (n : SlotNo) : (s.returnSlot n).supervision = s.supervision := rfl
@[simp] theorem State.returnSlot_resetCause (s : State) (n : SlotNo) : (s.returnSlot n).resetCause = s.resetCause := rfl
@[simp] theorem State.returnSlot_latched (s : State) (n : SlotNo) : (s.returnSlot n).latched = s.latched := rfl
@[simp] theorem State.returnSlot_fault (s : State) (n : SlotNo) : (s.returnSlot n).fault = s.fault := rfl
@[simp] theorem State.returnSlot_overflow (s : State) (n : SlotNo) : (s.returnSlot n).overflow = s.overflow := rfl
@[simp] theorem State.returnSlot_posts (s : State) (n : SlotNo) : (s.returnSlot n).posts = s.posts := rfl
@[simp] theorem State.returnSlot_owed (s : State) (n : SlotNo) : (s.returnSlot n).owed = s.owed := rfl
@[simp] theorem State.returnSlot_seq (s : State) (n : SlotNo) : (s.returnSlot n).seq = s.seq := rfl
@[simp] theorem State.returnSlot_stage (s : State) (n : SlotNo) : (s.returnSlot n).stage = s.stage := rfl
@[simp] theorem State.returnSlot_mem (s : State) (n : SlotNo) : (s.returnSlot n).mem = s.mem := rfl
@[simp] theorem State.returnSlot_pending (s : State) (n : SlotNo) : (s.returnSlot n).pending = s.pending := rfl

@[simp] theorem State.recallSlot_pins (s : State) (n : SlotNo) : (s.recallSlot n).pins = s.pins := rfl
@[simp] theorem State.recallSlot_straps (s : State) (n : SlotNo) : (s.recallSlot n).straps = s.straps := rfl
@[simp] theorem State.recallSlot_lock (s : State) (n : SlotNo) : (s.recallSlot n).lock = s.lock := rfl
@[simp] theorem State.recallSlot_settings (s : State) (n : SlotNo) : (s.recallSlot n).settings = s.settings := rfl
@[simp] theorem State.recallSlot_bus (s : State) (n : SlotNo) : (s.recallSlot n).bus = s.bus := rfl
@[simp] theorem State.recallSlot_held (s : State) (n : SlotNo) : (s.recallSlot n).held = s.held := rfl
@[simp] theorem State.recallSlot_reply (s : State) (n : SlotNo) : (s.recallSlot n).reply = s.reply := rfl
@[simp] theorem State.recallSlot_secondAtSlots (s : State) (n : SlotNo) : (s.recallSlot n).secondAtSlots = s.secondAtSlots := rfl
@[simp] theorem State.recallSlot_secondAtQueue (s : State) (n : SlotNo) : (s.recallSlot n).secondAtQueue = s.secondAtQueue := rfl
@[simp] theorem State.recallSlot_positions (s : State) (n : SlotNo) : (s.recallSlot n).positions = s.positions := rfl
@[simp] theorem State.recallSlot_readyList (s : State) (n : SlotNo) : (s.recallSlot n).readyList = s.readyList := rfl
@[simp] theorem State.recallSlot_prescaler (s : State) (n : SlotNo) : (s.recallSlot n).prescaler = s.prescaler := rfl
@[simp] theorem State.recallSlot_callTicks (s : State) (n : SlotNo) : (s.recallSlot n).callTicks = s.callTicks := rfl
@[simp] theorem State.recallSlot_divider (s : State) (n : SlotNo) : (s.recallSlot n).divider = s.divider := rfl
@[simp] theorem State.recallSlot_cadence (s : State) (n : SlotNo) : (s.recallSlot n).cadence = s.cadence := rfl
@[simp] theorem State.recallSlot_actual (s : State) (n : SlotNo) : (s.recallSlot n).actual = s.actual := rfl
@[simp] theorem State.recallSlot_requested (s : State) (n : SlotNo) : (s.recallSlot n).requested = s.requested := rfl
@[simp] theorem State.recallSlot_nightPending (s : State) (n : SlotNo) : (s.recallSlot n).nightPending = s.nightPending := rfl
@[simp] theorem State.recallSlot_supervision (s : State) (n : SlotNo) : (s.recallSlot n).supervision = s.supervision := rfl
@[simp] theorem State.recallSlot_resetCause (s : State) (n : SlotNo) : (s.recallSlot n).resetCause = s.resetCause := rfl
@[simp] theorem State.recallSlot_fault (s : State) (n : SlotNo) : (s.recallSlot n).fault = s.fault := rfl
@[simp] theorem State.recallSlot_overflow (s : State) (n : SlotNo) : (s.recallSlot n).overflow = s.overflow := rfl
@[simp] theorem State.recallSlot_posts (s : State) (n : SlotNo) : (s.recallSlot n).posts = s.posts := rfl
@[simp] theorem State.recallSlot_owed (s : State) (n : SlotNo) : (s.recallSlot n).owed = s.owed := rfl
@[simp] theorem State.recallSlot_seq (s : State) (n : SlotNo) : (s.recallSlot n).seq = s.seq := rfl
@[simp] theorem State.recallSlot_stage (s : State) (n : SlotNo) : (s.recallSlot n).stage = s.stage := rfl
@[simp] theorem State.recallSlot_mem (s : State) (n : SlotNo) : (s.recallSlot n).mem = s.mem := rfl
@[simp] theorem State.recallSlot_pending (s : State) (n : SlotNo) : (s.recallSlot n).pending = s.pending := rfl

@[simp] theorem State.becomeReady_pins (s : State) (p : PosNo) : (s.becomeReady p).pins = s.pins := rfl
@[simp] theorem State.becomeReady_straps (s : State) (p : PosNo) : (s.becomeReady p).straps = s.straps := rfl
@[simp] theorem State.becomeReady_lock (s : State) (p : PosNo) : (s.becomeReady p).lock = s.lock := rfl
@[simp] theorem State.becomeReady_settings (s : State) (p : PosNo) : (s.becomeReady p).settings = s.settings := rfl
@[simp] theorem State.becomeReady_bus (s : State) (p : PosNo) : (s.becomeReady p).bus = s.bus := rfl
@[simp] theorem State.becomeReady_held (s : State) (p : PosNo) : (s.becomeReady p).held = s.held := rfl
@[simp] theorem State.becomeReady_reply (s : State) (p : PosNo) : (s.becomeReady p).reply = s.reply := rfl
@[simp] theorem State.becomeReady_slots (s : State) (p : PosNo) : (s.becomeReady p).slots = s.slots := rfl
@[simp] theorem State.becomeReady_secondAtSlots (s : State) (p : PosNo) : (s.becomeReady p).secondAtSlots = s.secondAtSlots := rfl
@[simp] theorem State.becomeReady_answerList (s : State) (p : PosNo) : (s.becomeReady p).answerList = s.answerList := rfl
@[simp] theorem State.becomeReady_counters (s : State) (p : PosNo) : (s.becomeReady p).counters = s.counters := rfl
@[simp] theorem State.becomeReady_secondAtQueue (s : State) (p : PosNo) : (s.becomeReady p).secondAtQueue = s.secondAtQueue := rfl
@[simp] theorem State.becomeReady_prescaler (s : State) (p : PosNo) : (s.becomeReady p).prescaler = s.prescaler := rfl
@[simp] theorem State.becomeReady_callTicks (s : State) (p : PosNo) : (s.becomeReady p).callTicks = s.callTicks := rfl
@[simp] theorem State.becomeReady_divider (s : State) (p : PosNo) : (s.becomeReady p).divider = s.divider := rfl
@[simp] theorem State.becomeReady_cadence (s : State) (p : PosNo) : (s.becomeReady p).cadence = s.cadence := rfl
@[simp] theorem State.becomeReady_actual (s : State) (p : PosNo) : (s.becomeReady p).actual = s.actual := rfl
@[simp] theorem State.becomeReady_requested (s : State) (p : PosNo) : (s.becomeReady p).requested = s.requested := rfl
@[simp] theorem State.becomeReady_nightPending (s : State) (p : PosNo) : (s.becomeReady p).nightPending = s.nightPending := rfl
@[simp] theorem State.becomeReady_supervision (s : State) (p : PosNo) : (s.becomeReady p).supervision = s.supervision := rfl
@[simp] theorem State.becomeReady_resetCause (s : State) (p : PosNo) : (s.becomeReady p).resetCause = s.resetCause := rfl
@[simp] theorem State.becomeReady_latched (s : State) (p : PosNo) : (s.becomeReady p).latched = s.latched := rfl
@[simp] theorem State.becomeReady_fault (s : State) (p : PosNo) : (s.becomeReady p).fault = s.fault := rfl
@[simp] theorem State.becomeReady_overflow (s : State) (p : PosNo) : (s.becomeReady p).overflow = s.overflow := rfl
@[simp] theorem State.becomeReady_posts (s : State) (p : PosNo) : (s.becomeReady p).posts = s.posts := rfl
@[simp] theorem State.becomeReady_owed (s : State) (p : PosNo) : (s.becomeReady p).owed = s.owed := rfl
@[simp] theorem State.becomeReady_seq (s : State) (p : PosNo) : (s.becomeReady p).seq = s.seq := rfl
@[simp] theorem State.becomeReady_stage (s : State) (p : PosNo) : (s.becomeReady p).stage = s.stage := rfl
@[simp] theorem State.becomeReady_mem (s : State) (p : PosNo) : (s.becomeReady p).mem = s.mem := rfl
@[simp] theorem State.becomeReady_pending (s : State) (p : PosNo) : (s.becomeReady p).pending = s.pending := rfl

@[simp] theorem State.becomeClosed_pins (s : State) (p : PosNo) : (s.becomeClosed p).pins = s.pins := rfl
@[simp] theorem State.becomeClosed_straps (s : State) (p : PosNo) : (s.becomeClosed p).straps = s.straps := rfl
@[simp] theorem State.becomeClosed_lock (s : State) (p : PosNo) : (s.becomeClosed p).lock = s.lock := rfl
@[simp] theorem State.becomeClosed_settings (s : State) (p : PosNo) : (s.becomeClosed p).settings = s.settings := rfl
@[simp] theorem State.becomeClosed_bus (s : State) (p : PosNo) : (s.becomeClosed p).bus = s.bus := rfl
@[simp] theorem State.becomeClosed_held (s : State) (p : PosNo) : (s.becomeClosed p).held = s.held := rfl
@[simp] theorem State.becomeClosed_reply (s : State) (p : PosNo) : (s.becomeClosed p).reply = s.reply := rfl
@[simp] theorem State.becomeClosed_slots (s : State) (p : PosNo) : (s.becomeClosed p).slots = s.slots := rfl
@[simp] theorem State.becomeClosed_secondAtSlots (s : State) (p : PosNo) : (s.becomeClosed p).secondAtSlots = s.secondAtSlots := rfl
@[simp] theorem State.becomeClosed_answerList (s : State) (p : PosNo) : (s.becomeClosed p).answerList = s.answerList := rfl
@[simp] theorem State.becomeClosed_counters (s : State) (p : PosNo) : (s.becomeClosed p).counters = s.counters := rfl
@[simp] theorem State.becomeClosed_secondAtQueue (s : State) (p : PosNo) : (s.becomeClosed p).secondAtQueue = s.secondAtQueue := rfl
@[simp] theorem State.becomeClosed_prescaler (s : State) (p : PosNo) : (s.becomeClosed p).prescaler = s.prescaler := rfl
@[simp] theorem State.becomeClosed_callTicks (s : State) (p : PosNo) : (s.becomeClosed p).callTicks = s.callTicks := rfl
@[simp] theorem State.becomeClosed_divider (s : State) (p : PosNo) : (s.becomeClosed p).divider = s.divider := rfl
@[simp] theorem State.becomeClosed_cadence (s : State) (p : PosNo) : (s.becomeClosed p).cadence = s.cadence := rfl
@[simp] theorem State.becomeClosed_actual (s : State) (p : PosNo) : (s.becomeClosed p).actual = s.actual := rfl
@[simp] theorem State.becomeClosed_requested (s : State) (p : PosNo) : (s.becomeClosed p).requested = s.requested := rfl
@[simp] theorem State.becomeClosed_nightPending (s : State) (p : PosNo) : (s.becomeClosed p).nightPending = s.nightPending := rfl
@[simp] theorem State.becomeClosed_supervision (s : State) (p : PosNo) : (s.becomeClosed p).supervision = s.supervision := rfl
@[simp] theorem State.becomeClosed_resetCause (s : State) (p : PosNo) : (s.becomeClosed p).resetCause = s.resetCause := rfl
@[simp] theorem State.becomeClosed_latched (s : State) (p : PosNo) : (s.becomeClosed p).latched = s.latched := rfl
@[simp] theorem State.becomeClosed_fault (s : State) (p : PosNo) : (s.becomeClosed p).fault = s.fault := rfl
@[simp] theorem State.becomeClosed_overflow (s : State) (p : PosNo) : (s.becomeClosed p).overflow = s.overflow := rfl
@[simp] theorem State.becomeClosed_posts (s : State) (p : PosNo) : (s.becomeClosed p).posts = s.posts := rfl
@[simp] theorem State.becomeClosed_owed (s : State) (p : PosNo) : (s.becomeClosed p).owed = s.owed := rfl
@[simp] theorem State.becomeClosed_seq (s : State) (p : PosNo) : (s.becomeClosed p).seq = s.seq := rfl
@[simp] theorem State.becomeClosed_stage (s : State) (p : PosNo) : (s.becomeClosed p).stage = s.stage := rfl
@[simp] theorem State.becomeClosed_mem (s : State) (p : PosNo) : (s.becomeClosed p).mem = s.mem := rfl
@[simp] theorem State.becomeClosed_pending (s : State) (p : PosNo) : (s.becomeClosed p).pending = s.pending := rfl

@[simp] theorem State.becomeWrapup_pins (s : State) (p : PosNo) : (s.becomeWrapup p).pins = s.pins := rfl
@[simp] theorem State.becomeWrapup_straps (s : State) (p : PosNo) : (s.becomeWrapup p).straps = s.straps := rfl
@[simp] theorem State.becomeWrapup_lock (s : State) (p : PosNo) : (s.becomeWrapup p).lock = s.lock := rfl
@[simp] theorem State.becomeWrapup_settings (s : State) (p : PosNo) : (s.becomeWrapup p).settings = s.settings := rfl
@[simp] theorem State.becomeWrapup_bus (s : State) (p : PosNo) : (s.becomeWrapup p).bus = s.bus := rfl
@[simp] theorem State.becomeWrapup_held (s : State) (p : PosNo) : (s.becomeWrapup p).held = s.held := rfl
@[simp] theorem State.becomeWrapup_reply (s : State) (p : PosNo) : (s.becomeWrapup p).reply = s.reply := rfl
@[simp] theorem State.becomeWrapup_slots (s : State) (p : PosNo) : (s.becomeWrapup p).slots = s.slots := rfl
@[simp] theorem State.becomeWrapup_secondAtSlots (s : State) (p : PosNo) : (s.becomeWrapup p).secondAtSlots = s.secondAtSlots := rfl
@[simp] theorem State.becomeWrapup_answerList (s : State) (p : PosNo) : (s.becomeWrapup p).answerList = s.answerList := rfl
@[simp] theorem State.becomeWrapup_counters (s : State) (p : PosNo) : (s.becomeWrapup p).counters = s.counters := rfl
@[simp] theorem State.becomeWrapup_secondAtQueue (s : State) (p : PosNo) : (s.becomeWrapup p).secondAtQueue = s.secondAtQueue := rfl
@[simp] theorem State.becomeWrapup_prescaler (s : State) (p : PosNo) : (s.becomeWrapup p).prescaler = s.prescaler := rfl
@[simp] theorem State.becomeWrapup_callTicks (s : State) (p : PosNo) : (s.becomeWrapup p).callTicks = s.callTicks := rfl
@[simp] theorem State.becomeWrapup_divider (s : State) (p : PosNo) : (s.becomeWrapup p).divider = s.divider := rfl
@[simp] theorem State.becomeWrapup_cadence (s : State) (p : PosNo) : (s.becomeWrapup p).cadence = s.cadence := rfl
@[simp] theorem State.becomeWrapup_actual (s : State) (p : PosNo) : (s.becomeWrapup p).actual = s.actual := rfl
@[simp] theorem State.becomeWrapup_requested (s : State) (p : PosNo) : (s.becomeWrapup p).requested = s.requested := rfl
@[simp] theorem State.becomeWrapup_nightPending (s : State) (p : PosNo) : (s.becomeWrapup p).nightPending = s.nightPending := rfl
@[simp] theorem State.becomeWrapup_supervision (s : State) (p : PosNo) : (s.becomeWrapup p).supervision = s.supervision := rfl
@[simp] theorem State.becomeWrapup_resetCause (s : State) (p : PosNo) : (s.becomeWrapup p).resetCause = s.resetCause := rfl
@[simp] theorem State.becomeWrapup_latched (s : State) (p : PosNo) : (s.becomeWrapup p).latched = s.latched := rfl
@[simp] theorem State.becomeWrapup_fault (s : State) (p : PosNo) : (s.becomeWrapup p).fault = s.fault := rfl
@[simp] theorem State.becomeWrapup_overflow (s : State) (p : PosNo) : (s.becomeWrapup p).overflow = s.overflow := rfl
@[simp] theorem State.becomeWrapup_posts (s : State) (p : PosNo) : (s.becomeWrapup p).posts = s.posts := rfl
@[simp] theorem State.becomeWrapup_owed (s : State) (p : PosNo) : (s.becomeWrapup p).owed = s.owed := rfl
@[simp] theorem State.becomeWrapup_seq (s : State) (p : PosNo) : (s.becomeWrapup p).seq = s.seq := rfl
@[simp] theorem State.becomeWrapup_stage (s : State) (p : PosNo) : (s.becomeWrapup p).stage = s.stage := rfl
@[simp] theorem State.becomeWrapup_mem (s : State) (p : PosNo) : (s.becomeWrapup p).mem = s.mem := rfl
@[simp] theorem State.becomeWrapup_pending (s : State) (p : PosNo) : (s.becomeWrapup p).pending = s.pending := rfl

@[simp] theorem State.presentTo_pins (s : State) (n : SlotNo) (p : PosNo) : (s.presentTo n p).pins = s.pins := rfl
@[simp] theorem State.presentTo_straps (s : State) (n : SlotNo) (p : PosNo) : (s.presentTo n p).straps = s.straps := rfl
@[simp] theorem State.presentTo_lock (s : State) (n : SlotNo) (p : PosNo) : (s.presentTo n p).lock = s.lock := rfl
@[simp] theorem State.presentTo_settings (s : State) (n : SlotNo) (p : PosNo) : (s.presentTo n p).settings = s.settings := rfl
@[simp] theorem State.presentTo_bus (s : State) (n : SlotNo) (p : PosNo) : (s.presentTo n p).bus = s.bus := rfl
@[simp] theorem State.presentTo_held (s : State) (n : SlotNo) (p : PosNo) : (s.presentTo n p).held = s.held := rfl
@[simp] theorem State.presentTo_reply (s : State) (n : SlotNo) (p : PosNo) : (s.presentTo n p).reply = s.reply := rfl
@[simp] theorem State.presentTo_secondAtSlots (s : State) (n : SlotNo) (p : PosNo) : (s.presentTo n p).secondAtSlots = s.secondAtSlots := rfl
@[simp] theorem State.presentTo_answerList (s : State) (n : SlotNo) (p : PosNo) : (s.presentTo n p).answerList = s.answerList := rfl
@[simp] theorem State.presentTo_counters (s : State) (n : SlotNo) (p : PosNo) : (s.presentTo n p).counters = s.counters := rfl
@[simp] theorem State.presentTo_secondAtQueue (s : State) (n : SlotNo) (p : PosNo) : (s.presentTo n p).secondAtQueue = s.secondAtQueue := rfl
@[simp] theorem State.presentTo_prescaler (s : State) (n : SlotNo) (p : PosNo) : (s.presentTo n p).prescaler = s.prescaler := rfl
@[simp] theorem State.presentTo_callTicks (s : State) (n : SlotNo) (p : PosNo) : (s.presentTo n p).callTicks = s.callTicks := rfl
@[simp] theorem State.presentTo_divider (s : State) (n : SlotNo) (p : PosNo) : (s.presentTo n p).divider = s.divider := rfl
@[simp] theorem State.presentTo_cadence (s : State) (n : SlotNo) (p : PosNo) : (s.presentTo n p).cadence = s.cadence := rfl
@[simp] theorem State.presentTo_actual (s : State) (n : SlotNo) (p : PosNo) : (s.presentTo n p).actual = s.actual := rfl
@[simp] theorem State.presentTo_requested (s : State) (n : SlotNo) (p : PosNo) : (s.presentTo n p).requested = s.requested := rfl
@[simp] theorem State.presentTo_nightPending (s : State) (n : SlotNo) (p : PosNo) : (s.presentTo n p).nightPending = s.nightPending := rfl
@[simp] theorem State.presentTo_supervision (s : State) (n : SlotNo) (p : PosNo) : (s.presentTo n p).supervision = s.supervision := rfl
@[simp] theorem State.presentTo_resetCause (s : State) (n : SlotNo) (p : PosNo) : (s.presentTo n p).resetCause = s.resetCause := rfl
@[simp] theorem State.presentTo_latched (s : State) (n : SlotNo) (p : PosNo) : (s.presentTo n p).latched = s.latched := rfl
@[simp] theorem State.presentTo_fault (s : State) (n : SlotNo) (p : PosNo) : (s.presentTo n p).fault = s.fault := rfl
@[simp] theorem State.presentTo_overflow (s : State) (n : SlotNo) (p : PosNo) : (s.presentTo n p).overflow = s.overflow := rfl
@[simp] theorem State.presentTo_posts (s : State) (n : SlotNo) (p : PosNo) : (s.presentTo n p).posts = s.posts := rfl
@[simp] theorem State.presentTo_owed (s : State) (n : SlotNo) (p : PosNo) : (s.presentTo n p).owed = s.owed := rfl
@[simp] theorem State.presentTo_seq (s : State) (n : SlotNo) (p : PosNo) : (s.presentTo n p).seq = s.seq := rfl
@[simp] theorem State.presentTo_stage (s : State) (n : SlotNo) (p : PosNo) : (s.presentTo n p).stage = s.stage := rfl
@[simp] theorem State.presentTo_mem (s : State) (n : SlotNo) (p : PosNo) : (s.presentTo n p).mem = s.mem := rfl
@[simp] theorem State.presentTo_pending (s : State) (n : SlotNo) (p : PosNo) : (s.presentTo n p).pending = s.pending := rfl

@[simp] theorem State.offerTo_pins (s : State) (n : SlotNo) (p : PosNo) : (s.offerTo n p).pins = s.pins := rfl
@[simp] theorem State.offerTo_straps (s : State) (n : SlotNo) (p : PosNo) : (s.offerTo n p).straps = s.straps := rfl
@[simp] theorem State.offerTo_lock (s : State) (n : SlotNo) (p : PosNo) : (s.offerTo n p).lock = s.lock := rfl
@[simp] theorem State.offerTo_settings (s : State) (n : SlotNo) (p : PosNo) : (s.offerTo n p).settings = s.settings := rfl
@[simp] theorem State.offerTo_bus (s : State) (n : SlotNo) (p : PosNo) : (s.offerTo n p).bus = s.bus := rfl
@[simp] theorem State.offerTo_held (s : State) (n : SlotNo) (p : PosNo) : (s.offerTo n p).held = s.held := rfl
@[simp] theorem State.offerTo_reply (s : State) (n : SlotNo) (p : PosNo) : (s.offerTo n p).reply = s.reply := rfl
@[simp] theorem State.offerTo_secondAtSlots (s : State) (n : SlotNo) (p : PosNo) : (s.offerTo n p).secondAtSlots = s.secondAtSlots := rfl
@[simp] theorem State.offerTo_answerList (s : State) (n : SlotNo) (p : PosNo) : (s.offerTo n p).answerList = s.answerList := rfl
@[simp] theorem State.offerTo_counters (s : State) (n : SlotNo) (p : PosNo) : (s.offerTo n p).counters = s.counters := rfl
@[simp] theorem State.offerTo_secondAtQueue (s : State) (n : SlotNo) (p : PosNo) : (s.offerTo n p).secondAtQueue = s.secondAtQueue := rfl
@[simp] theorem State.offerTo_readyList (s : State) (n : SlotNo) (p : PosNo) : (s.offerTo n p).readyList = s.readyList := rfl
@[simp] theorem State.offerTo_prescaler (s : State) (n : SlotNo) (p : PosNo) : (s.offerTo n p).prescaler = s.prescaler := rfl
@[simp] theorem State.offerTo_callTicks (s : State) (n : SlotNo) (p : PosNo) : (s.offerTo n p).callTicks = s.callTicks := rfl
@[simp] theorem State.offerTo_divider (s : State) (n : SlotNo) (p : PosNo) : (s.offerTo n p).divider = s.divider := rfl
@[simp] theorem State.offerTo_cadence (s : State) (n : SlotNo) (p : PosNo) : (s.offerTo n p).cadence = s.cadence := rfl
@[simp] theorem State.offerTo_actual (s : State) (n : SlotNo) (p : PosNo) : (s.offerTo n p).actual = s.actual := rfl
@[simp] theorem State.offerTo_requested (s : State) (n : SlotNo) (p : PosNo) : (s.offerTo n p).requested = s.requested := rfl
@[simp] theorem State.offerTo_nightPending (s : State) (n : SlotNo) (p : PosNo) : (s.offerTo n p).nightPending = s.nightPending := rfl
@[simp] theorem State.offerTo_supervision (s : State) (n : SlotNo) (p : PosNo) : (s.offerTo n p).supervision = s.supervision := rfl
@[simp] theorem State.offerTo_resetCause (s : State) (n : SlotNo) (p : PosNo) : (s.offerTo n p).resetCause = s.resetCause := rfl
@[simp] theorem State.offerTo_latched (s : State) (n : SlotNo) (p : PosNo) : (s.offerTo n p).latched = s.latched := rfl
@[simp] theorem State.offerTo_fault (s : State) (n : SlotNo) (p : PosNo) : (s.offerTo n p).fault = s.fault := rfl
@[simp] theorem State.offerTo_overflow (s : State) (n : SlotNo) (p : PosNo) : (s.offerTo n p).overflow = s.overflow := rfl
@[simp] theorem State.offerTo_posts (s : State) (n : SlotNo) (p : PosNo) : (s.offerTo n p).posts = s.posts := rfl
@[simp] theorem State.offerTo_owed (s : State) (n : SlotNo) (p : PosNo) : (s.offerTo n p).owed = s.owed := rfl
@[simp] theorem State.offerTo_seq (s : State) (n : SlotNo) (p : PosNo) : (s.offerTo n p).seq = s.seq := rfl
@[simp] theorem State.offerTo_stage (s : State) (n : SlotNo) (p : PosNo) : (s.offerTo n p).stage = s.stage := rfl
@[simp] theorem State.offerTo_mem (s : State) (n : SlotNo) (p : PosNo) : (s.offerTo n p).mem = s.mem := rfl
@[simp] theorem State.offerTo_pending (s : State) (n : SlotNo) (p : PosNo) : (s.offerTo n p).pending = s.pending := rfl

@[simp] theorem State.putWord_pins (s : State) (off : Offset) (w : Word32) : (s.putWord off w).pins = s.pins := rfl
@[simp] theorem State.putWord_straps (s : State) (off : Offset) (w : Word32) : (s.putWord off w).straps = s.straps := rfl
@[simp] theorem State.putWord_lock (s : State) (off : Offset) (w : Word32) : (s.putWord off w).lock = s.lock := rfl
@[simp] theorem State.putWord_settings (s : State) (off : Offset) (w : Word32) : (s.putWord off w).settings = s.settings := rfl
@[simp] theorem State.putWord_bus (s : State) (off : Offset) (w : Word32) : (s.putWord off w).bus = s.bus := rfl
@[simp] theorem State.putWord_held (s : State) (off : Offset) (w : Word32) : (s.putWord off w).held = s.held := rfl
@[simp] theorem State.putWord_reply (s : State) (off : Offset) (w : Word32) : (s.putWord off w).reply = s.reply := rfl
@[simp] theorem State.putWord_slots (s : State) (off : Offset) (w : Word32) : (s.putWord off w).slots = s.slots := rfl
@[simp] theorem State.putWord_secondAtSlots (s : State) (off : Offset) (w : Word32) : (s.putWord off w).secondAtSlots = s.secondAtSlots := rfl
@[simp] theorem State.putWord_answerList (s : State) (off : Offset) (w : Word32) : (s.putWord off w).answerList = s.answerList := rfl
@[simp] theorem State.putWord_counters (s : State) (off : Offset) (w : Word32) : (s.putWord off w).counters = s.counters := rfl
@[simp] theorem State.putWord_secondAtQueue (s : State) (off : Offset) (w : Word32) : (s.putWord off w).secondAtQueue = s.secondAtQueue := rfl
@[simp] theorem State.putWord_positions (s : State) (off : Offset) (w : Word32) : (s.putWord off w).positions = s.positions := rfl
@[simp] theorem State.putWord_readyList (s : State) (off : Offset) (w : Word32) : (s.putWord off w).readyList = s.readyList := rfl
@[simp] theorem State.putWord_prescaler (s : State) (off : Offset) (w : Word32) : (s.putWord off w).prescaler = s.prescaler := rfl
@[simp] theorem State.putWord_callTicks (s : State) (off : Offset) (w : Word32) : (s.putWord off w).callTicks = s.callTicks := rfl
@[simp] theorem State.putWord_divider (s : State) (off : Offset) (w : Word32) : (s.putWord off w).divider = s.divider := rfl
@[simp] theorem State.putWord_cadence (s : State) (off : Offset) (w : Word32) : (s.putWord off w).cadence = s.cadence := rfl
@[simp] theorem State.putWord_actual (s : State) (off : Offset) (w : Word32) : (s.putWord off w).actual = s.actual := rfl
@[simp] theorem State.putWord_requested (s : State) (off : Offset) (w : Word32) : (s.putWord off w).requested = s.requested := rfl
@[simp] theorem State.putWord_nightPending (s : State) (off : Offset) (w : Word32) : (s.putWord off w).nightPending = s.nightPending := rfl
@[simp] theorem State.putWord_supervision (s : State) (off : Offset) (w : Word32) : (s.putWord off w).supervision = s.supervision := rfl
@[simp] theorem State.putWord_resetCause (s : State) (off : Offset) (w : Word32) : (s.putWord off w).resetCause = s.resetCause := rfl
@[simp] theorem State.putWord_latched (s : State) (off : Offset) (w : Word32) : (s.putWord off w).latched = s.latched := rfl
@[simp] theorem State.putWord_fault (s : State) (off : Offset) (w : Word32) : (s.putWord off w).fault = s.fault := rfl
@[simp] theorem State.putWord_overflow (s : State) (off : Offset) (w : Word32) : (s.putWord off w).overflow = s.overflow := rfl
@[simp] theorem State.putWord_posts (s : State) (off : Offset) (w : Word32) : (s.putWord off w).posts = s.posts := rfl
@[simp] theorem State.putWord_owed (s : State) (off : Offset) (w : Word32) : (s.putWord off w).owed = s.owed := rfl
@[simp] theorem State.putWord_seq (s : State) (off : Offset) (w : Word32) : (s.putWord off w).seq = s.seq := rfl
@[simp] theorem State.putWord_stage (s : State) (off : Offset) (w : Word32) : (s.putWord off w).stage = s.stage := rfl
@[simp] theorem State.putWord_pending (s : State) (off : Offset) (w : Word32) : (s.putWord off w).pending = s.pending := rfl

@[simp] theorem State.dropPost_pins (s : State) (off : Offset) : (s.dropPost off).pins = s.pins := rfl
@[simp] theorem State.dropPost_straps (s : State) (off : Offset) : (s.dropPost off).straps = s.straps := rfl
@[simp] theorem State.dropPost_lock (s : State) (off : Offset) : (s.dropPost off).lock = s.lock := rfl
@[simp] theorem State.dropPost_settings (s : State) (off : Offset) : (s.dropPost off).settings = s.settings := rfl
@[simp] theorem State.dropPost_bus (s : State) (off : Offset) : (s.dropPost off).bus = s.bus := rfl
@[simp] theorem State.dropPost_held (s : State) (off : Offset) : (s.dropPost off).held = s.held := rfl
@[simp] theorem State.dropPost_reply (s : State) (off : Offset) : (s.dropPost off).reply = s.reply := rfl
@[simp] theorem State.dropPost_slots (s : State) (off : Offset) : (s.dropPost off).slots = s.slots := rfl
@[simp] theorem State.dropPost_secondAtSlots (s : State) (off : Offset) : (s.dropPost off).secondAtSlots = s.secondAtSlots := rfl
@[simp] theorem State.dropPost_answerList (s : State) (off : Offset) : (s.dropPost off).answerList = s.answerList := rfl
@[simp] theorem State.dropPost_counters (s : State) (off : Offset) : (s.dropPost off).counters = s.counters := rfl
@[simp] theorem State.dropPost_secondAtQueue (s : State) (off : Offset) : (s.dropPost off).secondAtQueue = s.secondAtQueue := rfl
@[simp] theorem State.dropPost_positions (s : State) (off : Offset) : (s.dropPost off).positions = s.positions := rfl
@[simp] theorem State.dropPost_readyList (s : State) (off : Offset) : (s.dropPost off).readyList = s.readyList := rfl
@[simp] theorem State.dropPost_prescaler (s : State) (off : Offset) : (s.dropPost off).prescaler = s.prescaler := rfl
@[simp] theorem State.dropPost_callTicks (s : State) (off : Offset) : (s.dropPost off).callTicks = s.callTicks := rfl
@[simp] theorem State.dropPost_divider (s : State) (off : Offset) : (s.dropPost off).divider = s.divider := rfl
@[simp] theorem State.dropPost_cadence (s : State) (off : Offset) : (s.dropPost off).cadence = s.cadence := rfl
@[simp] theorem State.dropPost_actual (s : State) (off : Offset) : (s.dropPost off).actual = s.actual := rfl
@[simp] theorem State.dropPost_requested (s : State) (off : Offset) : (s.dropPost off).requested = s.requested := rfl
@[simp] theorem State.dropPost_nightPending (s : State) (off : Offset) : (s.dropPost off).nightPending = s.nightPending := rfl
@[simp] theorem State.dropPost_supervision (s : State) (off : Offset) : (s.dropPost off).supervision = s.supervision := rfl
@[simp] theorem State.dropPost_resetCause (s : State) (off : Offset) : (s.dropPost off).resetCause = s.resetCause := rfl
@[simp] theorem State.dropPost_latched (s : State) (off : Offset) : (s.dropPost off).latched = s.latched := rfl
@[simp] theorem State.dropPost_fault (s : State) (off : Offset) : (s.dropPost off).fault = s.fault := rfl
@[simp] theorem State.dropPost_overflow (s : State) (off : Offset) : (s.dropPost off).overflow = s.overflow := rfl
@[simp] theorem State.dropPost_owed (s : State) (off : Offset) : (s.dropPost off).owed = s.owed := rfl
@[simp] theorem State.dropPost_seq (s : State) (off : Offset) : (s.dropPost off).seq = s.seq := rfl
@[simp] theorem State.dropPost_stage (s : State) (off : Offset) : (s.dropPost off).stage = s.stage := rfl
@[simp] theorem State.dropPost_mem (s : State) (off : Offset) : (s.dropPost off).mem = s.mem := rfl
@[simp] theorem State.dropPost_pending (s : State) (off : Offset) : (s.dropPost off).pending = s.pending := rfl

/-! Records read back. -/

@[simp] theorem State.slot_setSlot_same (s : State) (n : SlotNo) (v : Slot) : (s.setSlot n v).slot n = v := by
  simp [State.slot, State.setSlot]

@[simp] theorem State.slot_setSlot_ne (s : State) {n m : SlotNo} (v : Slot) (h : n ≠ m) :
    (s.setSlot n v).slot m = s.slot m := by
  have h' : n.val ≠ m.val := fun e => h (Fin.ext e)
  simp [State.slot, State.setSlot, h']

theorem State.slot_setSlot (s : State) (n m : SlotNo) (v : Slot) :
    (s.setSlot n v).slot m = if m = n then v else s.slot m := by
  by_cases h : m = n
  · subst h; simp
  · simp [h, State.slot_setSlot_ne s v (Ne.symm h)]

@[simp] theorem State.pos_setPos_same (s : State) (p : PosNo) (v : Position) : (s.setPos p v).pos p = v := by
  simp [State.pos, State.setPos]

@[simp] theorem State.pos_setPos_ne (s : State) {p q : PosNo} (v : Position) (h : p ≠ q) :
    (s.setPos p v).pos q = s.pos q := by
  have h' : p.val ≠ q.val := fun e => h (Fin.ext e)
  simp [State.pos, State.setPos, h']

theorem State.pos_setPos (s : State) (p q : PosNo) (v : Position) :
    (s.setPos p v).pos q = if q = p then v else s.pos q := by
  by_cases h : q = p
  · subst h; simp
  · simp [h, State.pos_setPos_ne s v (Ne.symm h)]

@[simp] theorem State.pos_setSlot (s : State) (n : SlotNo) (v : Slot) (p : PosNo) : (s.setSlot n v).pos p = s.pos p := rfl

@[simp] theorem State.slot_setPos (s : State) (p : PosNo) (v : Position) (n : SlotNo) :
    (s.setPos p v).slot n = s.slot n := rfl

@[simp] theorem State.setPos_setPos (s : State) (p : PosNo) (v w : Position) :
    (s.setPos p v).setPos p w = s.setPos p w := by
  simp [State.setPos]

@[simp] theorem State.setSlot_slot (s : State) (n : SlotNo) : s.setSlot n (s.slot n) = s := by
  simp [State.setSlot, State.slot]

@[simp] theorem State.setPos_pos (s : State) (p : PosNo) : s.setPos p (s.pos p) = s := by
  simp [State.setPos, State.pos]

theorem State.setSlot_setPos (s : State) (n : SlotNo) (v : Slot) (p : PosNo) (w : Position) :
    (s.setSlot n v).setPos p w = (s.setPos p w).setSlot n v := rfl

@[simp] theorem mapVec_get {α β : Type} {n : Nat} (f : α → β) (v : Vector α n) (i : Fin n) :
    (mapVec f v)[i] = f v[i] := by
  simp [mapVec]

end Sys2Proof.Machine
end

