-- ==== Sys2Proof/Laws/Memory.lean ====
section
/-! SUPPORT. The call store: a read after a write, what a write leaves alone, and that every operation keeps the
canonical form. -/

namespace Sys2Proof.Machine

/-! Fields of words as numbers. -/

theorem toNat_append_add {n m : Nat} (x : BitVec n) (y : BitVec m) : (x ++ y).toNat = x.toNat * 2 ^ m + y.toNat := by
  rw [BitVec.toNat_append, Nat.mul_comm, Nat.two_pow_add_eq_or_of_lt y.isLt, Nat.shiftLeft_eq, Nat.mul_comm]

theorem toNat_extract {n : Nat} (x : BitVec n) (s l : Nat) : (x.extractLsb' s l).toNat = x.toNat / 2 ^ s % 2 ^ l := by
  simp [BitVec.extractLsb'_toNat, Nat.shiftRight_eq_div_pow]

theorem toNat_ofLanes (b0 b1 b2 b3 : BitVec 8) :
    (ofLanes b0 b1 b2 b3).toNat = b0.toNat + 256 * b1.toNat + 65536 * b2.toNat + 16777216 * b3.toNat := by
  have : (ofLanes b0 b1 b2 b3).toNat = (b3 ++ b2 ++ b1 ++ b0).toNat := rfl
  rw [this, toNat_append_add, toNat_append_add, toNat_append_add]; omega

theorem toNat_laneOf (w : Word32) (i : Nat) : (laneOf w i).toNat = w.toNat / 2 ^ (8 * i) % 256 := toNat_extract ..

theorem laneOf_ofLanes (b0 b1 b2 b3 : BitVec 8) :
    laneOf (ofLanes b0 b1 b2 b3) 0 = b0 ∧ laneOf (ofLanes b0 b1 b2 b3) 1 = b1 ∧
      laneOf (ofLanes b0 b1 b2 b3) 2 = b2 ∧ laneOf (ofLanes b0 b1 b2 b3) 3 = b3 := by
  have h0 := b0.isLt; have h1 := b1.isLt; have h2 := b2.isLt; have h3 := b3.isLt
  refine ⟨?_, ?_, ?_, ?_⟩ <;> (apply BitVec.eq_of_toNat_eq; rw [toNat_laneOf, toNat_ofLanes]; norm_num; omega)

theorem ofLanes_laneOf (w : Word32) : ofLanes (laneOf w 0) (laneOf w 1) (laneOf w 2) (laneOf w 3) = w := by
  have hw := w.isLt
  apply BitVec.eq_of_toNat_eq; rw [toNat_ofLanes]; simp only [toNat_laneOf]; norm_num at *; omega

/-- Every address of a canonical list above a bound is above it. -/
theorem Memory.wfAbove_lt {m : Memory} {lo : Nat} (h : m.wfAbove (some lo) = true) : ∀ c ∈ m, lo < c.1 := by
  induction m generalizing lo with
  | nil => simp
  | cons c rest ih =>
    obtain ⟨a, v⟩ := c
    simp only [Memory.wfAbove, Bool.and_eq_true, decide_eq_true_eq] at h
    intro c hc
    rcases List.mem_cons.1 hc with rfl | hc
    · exact h.1.1
    · exact Nat.lt_trans h.1.1 (ih h.2 c hc)

theorem Memory.wfAbove_weaken {m : Memory} {lo lo' : Nat} (h : m.wfAbove (some lo) = true) (hl : lo' ≤ lo) :
    m.wfAbove (some lo') = true := by
  cases m with
  | nil => rfl
  | cons c rest =>
    obtain ⟨a, v⟩ := c
    simp only [Memory.wfAbove, Bool.and_eq_true, decide_eq_true_eq] at h ⊢
    exact ⟨⟨Nat.lt_of_le_of_lt hl h.1.1, h.1.2⟩, h.2⟩

theorem Memory.wfAbove_none {m : Memory} {lo : Nat} (h : m.wfAbove (some lo) = true) : m.wfAbove none = true := by
  cases m with
  | nil => rfl
  | cons c rest =>
    obtain ⟨a, v⟩ := c
    simp only [Memory.wfAbove, Bool.and_eq_true, decide_eq_true_eq, Bool.true_and] at h ⊢
    exact ⟨h.1.2, h.2⟩

theorem Memory.read_of_lt {m : Memory} {a : Nat} (h : ∀ c ∈ m, a < c.1) : m.read a = Config.unlistedByte := by
  induction m with
  | nil => rfl
  | cons c rest ih =>
    obtain ⟨b, v⟩ := c
    have hb : a < b := h (b, v) (by simp)
    simp only [Memory.read, if_neg (Nat.ne_of_lt hb)]
    exact ih fun c hc => h c (by simp [hc])

theorem Memory.write_wfAbove {m : Memory} {lo : Nat} {a : Nat} {v : BitVec 8} (h : m.wfAbove (some lo) = true)
    (hl : lo < a) : (m.write a v).wfAbove (some lo) = true := by
  induction m generalizing lo with
  | nil =>
    by_cases hv : v = Config.unlistedByte <;> simp [Memory.write, Memory.wfAbove, hv, hl]
  | cons c rest ih =>
    obtain ⟨b, w⟩ := c
    simp only [Memory.wfAbove, Bool.and_eq_true, decide_eq_true_eq] at h
    obtain ⟨⟨h1, h2⟩, h3⟩ := h
    unfold Memory.write
    split_ifs with hab hv hab' hv'
    · simp [Memory.wfAbove, h1, h2, h3]
    · simp [Memory.wfAbove, hl, hv, hab, h2, h3]
    · exact Memory.wfAbove_weaken h3 (Nat.le_of_lt h1)
    · subst hab'; simp [Memory.wfAbove, h1, hv', h3]
    · simp only [Memory.wfAbove, Bool.and_eq_true, decide_eq_true_eq]
      exact ⟨⟨h1, h2⟩, ih h3 (by omega)⟩

/-- A write keeps the canonical form. -/
theorem Memory.write_wf {m : Memory} (a : Nat) (v : BitVec 8) (h : m.wf = true) : (m.write a v).wf = true := by
  cases m with
  | nil => by_cases hv : v = Config.unlistedByte <;> simp [Memory.wf, Memory.write, Memory.wfAbove, hv]
  | cons c rest =>
    obtain ⟨b, w⟩ := c
    simp only [Memory.wf, Memory.wfAbove, Bool.and_eq_true, decide_eq_true_eq, Bool.true_and] at h
    unfold Memory.wf Memory.write
    split_ifs with hab hv hab' hv'
    · simp [Memory.wfAbove, h.1, h.2]
    · simp [Memory.wfAbove, hv, hab, h.1, h.2]
    · exact Memory.wfAbove_none h.2
    · subst hab'; simp [Memory.wfAbove, hv', h.2]
    · simp only [Memory.wfAbove, Bool.and_eq_true, decide_eq_true_eq, Bool.true_and]
      exact ⟨h.1, Memory.write_wfAbove h.2 (by omega)⟩

/-- A write leaves every other byte alone. -/
theorem Memory.read_write_ne (m : Memory) {a b : Nat} (v : BitVec 8) (h : b ≠ a) : (m.write a v).read b = m.read b := by
  induction m with
  | nil => by_cases hv : v = Config.unlistedByte <;> simp [Memory.write, Memory.read, hv, h]
  | cons c rest ih =>
    obtain ⟨d, w⟩ := c
    unfold Memory.write
    split_ifs with hab hv hab' hv'
    · rfl
    · simp [Memory.read, h]
    · subst hab'; simp [Memory.read, h]
    · subst hab'; simp [Memory.read, h]
    · simp only [Memory.read, ih]

/-- A read after a write of the same byte gives the byte written. -/
theorem Memory.read_write_same {m : Memory} (a : Nat) (v : BitVec 8) (h : m.wf = true) : (m.write a v).read a = v := by
  have key : ∀ (m : Memory) (lo : Option Nat), m.wfAbove lo = true → (m.write a v).read a = v := by
    intro m
    induction m with
    | nil => intro _ _; by_cases hv : v = Config.unlistedByte <;> simp [Memory.write, Memory.read, hv]
    | cons c rest ih =>
      intro lo hlo
      obtain ⟨d, w⟩ := c
      have hrest : Memory.wfAbove (some d) rest = true := by
        cases lo <;> simp only [Memory.wfAbove, Bool.and_eq_true] at hlo <;> exact hlo.2
      have habove := Memory.wfAbove_lt hrest
      unfold Memory.write
      split_ifs with hab hv hab' hv'
      · rw [hv]
        exact Memory.read_of_lt (by
          intro c hc
          rcases List.mem_cons.1 hc with rfl | hc
          · exact hab
          · exact Nat.lt_trans hab (habove c hc))
      · simp [Memory.read]
      · subst hab'; rw [hv']; exact Memory.read_of_lt habove
      · simp [Memory.read]
      · simp only [Memory.read, if_neg hab']
        exact ih _ hrest
  exact key m none h

theorem Memory.writeLane_wf {m : Memory} (a : BusAddr) (lanes : Lanes) (w : Word32) (i : Nat) (h : m.wf = true) :
    (m.writeLane a lanes w i).wf = true := by
  unfold Memory.writeLane
  split
  · exact Memory.write_wf _ _ h
  · exact h

/-- A word write keeps the canonical form. -/
theorem Memory.writeWord_wf {m : Memory} (a : BusAddr) (lanes : Lanes) (w : Word32) (h : m.wf = true) :
    (m.writeWord a lanes w).wf = true :=
  Memory.writeLane_wf _ _ _ _ (Memory.writeLane_wf _ _ _ _ (Memory.writeLane_wf _ _ _ _ (Memory.writeLane_wf _ _ _ _ h)))

/-- The call store a power-on loads is canonical. -/
theorem Memory.ofCells_wf (cells : List Host.Cell) : (Memory.ofCells cells).wf = true := by
  have key : ∀ (m : Memory), m.wf = true →
      Memory.wf (cells.foldl (fun m c => if c.1 < Config.memoryBytes then Memory.write m c.1 c.2 else m) m) = true := by
    induction cells with
    | nil => intro m h; exact h
    | cons c rest ih =>
      intro m h
      simp only [List.foldl_cons]
      apply ih
      split
      · exact Memory.write_wf _ _ h
      · exact h
  exact key [] rfl

theorem Memory.read_writeLane_same {m : Memory} (a : BusAddr) (lanes : Lanes) (w : Word32) (i : Nat) (h : m.wf = true) :
    (m.writeLane a lanes w i).read (4 * a.toNat + i) =
      if lanes.getLsbD i then laneOf w i else m.read (4 * a.toNat + i) := by
  unfold Memory.writeLane
  split
  · exact Memory.read_write_same _ _ h
  · rfl

theorem Memory.read_writeLane_ne (m : Memory) (a : BusAddr) (lanes : Lanes) (w : Word32) {i b : Nat}
    (h : b ≠ 4 * a.toNat + i) : (m.writeLane a lanes w i).read b = m.read b := by
  unfold Memory.writeLane
  split
  · exact Memory.read_write_ne _ _ h
  · rfl

/-- A word write leaves every byte outside its word alone. -/
theorem Memory.read_writeWord_ne (m : Memory) (a : BusAddr) (lanes : Lanes) (w : Word32) {b : Nat}
    (h : b / 4 ≠ a.toNat) : (m.writeWord a lanes w).read b = m.read b := by
  unfold Memory.writeWord
  rw [Memory.read_writeLane_ne _ _ _ _ (by omega), Memory.read_writeLane_ne _ _ _ _ (by omega),
    Memory.read_writeLane_ne _ _ _ _ (by omega), Memory.read_writeLane_ne _ _ _ _ (by omega)]

/-- The word a word write leaves: the enabled lanes of the data, and the other lanes of the word that was there. -/
theorem Memory.readWord_writeWord_same {m : Memory} (a : BusAddr) (lanes : Lanes) (w : Word32) (h : m.wf = true) :
    (m.writeWord a lanes w).readWord a = mergeLanes lanes w (m.readWord a) := by
  obtain ⟨l0, l1, l2, l3⟩ := laneOf_ofLanes (m.read (4 * a.toNat)) (m.read (4 * a.toNat + 1))
    (m.read (4 * a.toNat + 2)) (m.read (4 * a.toNat + 3))
  have h0 := Memory.writeLane_wf a lanes w 0 h
  have h1 := Memory.writeLane_wf a lanes w 1 h0
  have h2 := Memory.writeLane_wf a lanes w 2 h1
  have r0 : (m.writeWord a lanes w).read (4 * a.toNat) =
      if lanes.getLsbD 0 then laneOf w 0 else m.read (4 * a.toNat) := by
    unfold Memory.writeWord
    rw [Memory.read_writeLane_ne _ _ _ _ (by omega), Memory.read_writeLane_ne _ _ _ _ (by omega),
      Memory.read_writeLane_ne _ _ _ _ (by omega)]
    exact Memory.read_writeLane_same a lanes w 0 h
  have r1 : (m.writeWord a lanes w).read (4 * a.toNat + 1) =
      if lanes.getLsbD 1 then laneOf w 1 else m.read (4 * a.toNat + 1) := by
    unfold Memory.writeWord
    rw [Memory.read_writeLane_ne _ _ _ _ (by omega), Memory.read_writeLane_ne _ _ _ _ (by omega),
      Memory.read_writeLane_same a lanes w 1 h0, Memory.read_writeLane_ne _ _ _ _ (by omega)]
  have r2 : (m.writeWord a lanes w).read (4 * a.toNat + 2) =
      if lanes.getLsbD 2 then laneOf w 2 else m.read (4 * a.toNat + 2) := by
    unfold Memory.writeWord
    rw [Memory.read_writeLane_ne _ _ _ _ (by omega), Memory.read_writeLane_same a lanes w 2 h1,
      Memory.read_writeLane_ne _ _ _ _ (by omega), Memory.read_writeLane_ne _ _ _ _ (by omega)]
  have r3 : (m.writeWord a lanes w).read (4 * a.toNat + 3) =
      if lanes.getLsbD 3 then laneOf w 3 else m.read (4 * a.toNat + 3) := by
    unfold Memory.writeWord
    rw [Memory.read_writeLane_same a lanes w 3 h2, Memory.read_writeLane_ne _ _ _ _ (by omega),
      Memory.read_writeLane_ne _ _ _ _ (by omega), Memory.read_writeLane_ne _ _ _ _ (by omega)]
  rw [Memory.readWord, r0, r1, r2, r3, mergeLanes, Memory.readWord]
  simp only [l0, l1, l2, l3]

/-- A word write leaves every other word alone. -/
theorem Memory.readWord_writeWord_ne (m : Memory) {a b : BusAddr} (lanes : Lanes) (w : Word32) (h : b ≠ a) :
    (m.writeWord a lanes w).readWord b = m.readWord b := by
  have hne : b.toNat ≠ a.toNat := fun e => h (BitVec.eq_of_toNat_eq e)
  unfold Memory.readWord
  rw [Memory.read_writeWord_ne m a lanes w (by omega), Memory.read_writeWord_ne m a lanes w (by omega),
    Memory.read_writeWord_ne m a lanes w (by omega), Memory.read_writeWord_ne m a lanes w (by omega)]

/-- On all four lanes a merge is the new word. -/
@[simp] theorem mergeLanes_full (w old : Word32) : mergeLanes fullLanes w old = w := by
  have h : ∀ i < 4, fullLanes.getLsbD i = true := by decide
  simp only [mergeLanes, h 0 (by decide), h 1 (by decide), h 2 (by decide), h 3 (by decide), if_true]
  exact ofLanes_laneOf w

theorem toNat_windowAddr (wbase : BitVec 6) (off : Offset) :
    (windowAddr wbase off).toNat = wbase.toNat * 2048 + off.toNat := by
  have : (windowAddr wbase off).toNat = (0#3 ++ wbase ++ off).toNat := rfl
  rw [this, toNat_append_add, toNat_append_add]; simp

/-- A window offset read back from its bus address (R129). -/
@[simp] theorem windowOffset_windowAddr (wbase : BitVec 6) (off : Offset) :
    windowOffset wbase (windowAddr wbase off) = some off := by
  have hw := wbase.isLt; have ho := off.isLt
  have h1 : (windowAddr wbase off).extractLsb' 11 9 = 0#3 ++ wbase := by
    apply BitVec.eq_of_toNat_eq
    have : (0#3 ++ wbase).toNat = wbase.toNat := by rw [toNat_append_add]; simp
    rw [toNat_extract, toNat_windowAddr]; erw [this]; norm_num at *; omega
  have h2 : (windowAddr wbase off).extractLsb' 0 11 = off := by
    apply BitVec.eq_of_toNat_eq
    rw [toNat_extract, toNat_windowAddr]; norm_num at *; omega
  simp [windowOffset, h1, h2]

theorem windowAddr_injective (wbase : BitVec 6) {a b : Offset} (h : windowAddr wbase a = windowAddr wbase b) :
    a = b := by
  have := windowOffset_windowAddr wbase a
  rw [h, windowOffset_windowAddr] at this
  exact (Option.some.inj this).symm

/-- A bus address inside the window is that of its offset. -/
theorem windowAddr_of_windowOffset {wbase : BitVec 6} {a : BusAddr} {off : Offset}
    (h : windowOffset wbase a = some off) : windowAddr wbase off = a := by
  unfold windowOffset at h
  split at h
  · rename_i hw
    have hw' := congrArg BitVec.toNat hw
    have : (0#3 ++ wbase).toNat = wbase.toNat := by rw [toNat_append_add]; simp
    rw [toNat_extract] at hw'
    erw [this] at hw'
    rw [← Option.some.inj h]
    apply BitVec.eq_of_toNat_eq
    rw [toNat_windowAddr, toNat_extract]
    have ha := a.isLt
    norm_num at *; omega
  · cases h

@[simp] theorem State.windowOffset_addr (s : State) (off : Offset) : windowOffset s.straps.wbase (s.addr off) = some off :=
  windowOffset_windowAddr _ _

theorem State.addr_inj (s : State) {a b : Offset} (h : s.addr a = s.addr b) : a = b := windowAddr_injective _ h

end Sys2Proof.Machine
end

