-- ==== Sys2Proof/Laws/Places.lean ====
section
/-! SUPPORT. The window map read at the offsets of slot records, position blocks, setting words and counter words, and the
posted words among them. -/

namespace Sys2Proof.Machine

theorem toNat_slotOffset (n : SlotNo) {i : Nat} (h : i < 8) : (slotOffset n i).toNat = 0x400 + 8 * n.val + i := by
  have := n.isLt
  simp only [slotOffset, BitVec.toNat_ofNat]; omega

theorem toNat_blockOffset (p : PosNo) {i : Nat} (h : i < 16) : (blockOffset p i).toNat = 0x0C0 + 16 * p.val + i := by
  have := p.isLt
  simp only [blockOffset, BitVec.toNat_ofNat]; omega

/-- Word `i` of the record of slot `n` names that word (R1, R130). -/
theorem placeOf_slotOffset (n : SlotNo) {i : Nat} (h : i < 8) : placeOf (slotOffset n i) = slotPlace n i := by
  have hn := n.isLt
  have hd : (0x400 + 8 * n.val + i - 0x400) / 8 = n.val := by omega
  have hm : (0x400 + 8 * n.val + i - 0x400) % 8 = i := by omega
  have hf : Fin.ofNat 128 n.val = n := by ext; simp [Fin.ofNat, Nat.mod_eq_of_lt hn]
  simp only [placeOf, toNat_slotOffset n h, hd, hm, hf]
  repeat rw [if_neg (by omega)]

/-- Word `i` of position block `p` names that word (R130). -/
theorem placeOf_blockOffset (p : PosNo) {i : Nat} (h : i < 16) : placeOf (blockOffset p i) = blockPlace p i := by
  have hp := p.isLt
  have hd : (0x0C0 + 16 * p.val + i - 0x0C0) / 16 = p.val := by omega
  have hm : (0x0C0 + 16 * p.val + i - 0x0C0) % 16 = i := by omega
  have hf : Fin.ofNat 4 p.val = p := by ext; simp [Fin.ofNat, Nat.mod_eq_of_lt hp]
  simp only [placeOf, toNat_blockOffset p h, hd, hm, hf]
  rw [if_neg (by omega), if_neg (by omega), if_neg (by omega), if_neg (by omega), if_neg (by omega), if_pos (by omega)]

@[simp] theorem placeOf_action (n : SlotNo) : placeOf (slotOffset n 0) = .action n := placeOf_slotOffset n (by omega)
@[simp] theorem placeOf_line (n : SlotNo) : placeOf (slotOffset n 1) = .line n := placeOf_slotOffset n (by omega)
@[simp] theorem placeOf_disposition (n : SlotNo) : placeOf (slotOffset n 2) = .disposition n :=
  placeOf_slotOffset n (by omega)
@[simp] theorem placeOf_control (p : PosNo) : placeOf (blockOffset p 0) = .control p := placeOf_blockOffset p (by omega)
@[simp] theorem placeOf_status (p : PosNo) : placeOf (blockOffset p 1) = .status p := placeOf_blockOffset p (by omega)

theorem placeOf_view (p : PosNo) (i : Fin 8) : placeOf (blockOffset p (8 + i.val)) = .view p i := by
  have hi := i.isLt
  rw [placeOf_blockOffset p (by omega)]
  simp only [blockPlace]
  rw [if_neg (by omega), if_neg (by omega), if_neg (by omega), if_neg (by omega)]
  congr 1; ext; simp

@[simp] theorem placeOf_view_eight (p : PosNo) : placeOf (blockOffset p 8) = .view p 0 := placeOf_view p 0
@[simp] theorem placeOf_view_nine (p : PosNo) : placeOf (blockOffset p 9) = .view p 1 := placeOf_view p 1

/-- The offset of a setting word names that setting (R141). -/
@[simp] theorem placeOf_settingOffset (w : SettingWord) : placeOf (settingOffset w) = .setting w := by
  have key : ∀ g : Fin 32, placeOf (settingOffset (.groupFirst g)) = .setting (.groupFirst g) ∧
      placeOf (settingOffset (.groupSecond g)) = .setting (.groupSecond g) := by decide
  cases w <;> first | rfl | exact (key _).1 | exact (key _).2

theorem placeOf_counter : ∀ g : GroupNo, placeOf (BitVec.ofNat 11 (0x080 + 2 * g.val)) = .counterFirst g ∧
    placeOf (BitVec.ofNat 11 (0x081 + 2 * g.val)) = .counterSecond g := by decide

theorem slotOffset_inj {n m : SlotNo} {i j : Nat} (hi : i < 8) (hj : j < 8) (h : slotOffset n i = slotOffset m j) :
    n = m ∧ i = j := by
  have := congrArg BitVec.toNat h
  rw [toNat_slotOffset n hi, toNat_slotOffset m hj] at this
  exact ⟨Fin.ext (by omega), by omega⟩

/-- A posted word below the slot records is one of nine. -/
theorem posted_below_slots {off : Offset} (hs : off.toNat < 0x400) (h : (placeOf off).isPosted = true) :
    off ∈ ([0x010, 0x011, 0x014, 0x015, 0x016, 0x0C1, 0x0D1, 0x0E1, 0x0F1] : List Offset) := by
  have hk : off.toNat = 0x010 ∨ off.toNat = 0x011 ∨ off.toNat = 0x014 ∨ off.toNat = 0x015 ∨ off.toNat = 0x016 ∨
      off.toNat = 0x0C1 ∨ off.toNat = 0x0D1 ∨ off.toNat = 0x0E1 ∨ off.toNat = 0x0F1 := by
    unfold placeOf at h
    dsimp only at h
    generalize off.toNat = k at h hs
    split_ifs at h with h1 h2 h3 h4 h5 h6 h7 h8 h9 h10
    · interval_cases k <;> simp_all [setupPlace, Place.isPosted]
    · interval_cases k <;> simp_all [statusPlace, Place.isPosted]
    all_goals first | (simp [Place.isPosted] at h; done) | skip
    unfold blockPlace at h
    split_ifs at h with g1 g2 g3 g4
    all_goals first | (simp [Place.isPosted] at h; done) | omega
  have hoff : off = BitVec.ofNat 11 off.toNat := by simp
  rw [hoff]
  rcases hk with hk | hk | hk | hk | hk | hk | hk | hk | hk <;> rw [hk] <;> decide

/-- The posted words, by what they are (R163). -/
theorem mem_postedOffsets {off : Offset} : off ∈ postedOffsets ↔ (placeOf off).isPosted = true := by
  have small : ∀ x ∈ ([0x010, 0x011, 0x014, 0x015, 0x016, 0x0C1, 0x0D1, 0x0E1, 0x0F1] : List Offset),
      (placeOf x).isPosted = true := by decide
  constructor
  · intro h
    rcases List.mem_append.1 h with h | h
    · exact small off h
    · obtain ⟨n, -, rfl⟩ := List.mem_map.1 h
      rw [placeOf_disposition]; rfl
  · intro h
    have ho := off.isLt
    by_cases hs : off.toNat < 0x400
    · exact List.mem_append_left _ (posted_below_slots hs h)
    · have hn : (off.toNat - 0x400) / 8 < 128 := by omega
      have hi : (off.toNat - 0x400) % 8 < 8 := by omega
      have hoff : off = slotOffset ⟨(off.toNat - 0x400) / 8, hn⟩ ((off.toNat - 0x400) % 8) := by
        apply BitVec.eq_of_toNat_eq
        rw [toNat_slotOffset _ hi]; dsimp only; omega
      rw [hoff, placeOf_slotOffset _ hi] at h
      have h2 : (off.toNat - 0x400) % 8 = 2 := by
        generalize (off.toNat - 0x400) % 8 = i at h hi
        interval_cases i <;> simp [slotPlace, Place.isPosted] at h ⊢
      rw [hoff, h2]
      exact List.mem_append_right _ (List.mem_map.2 ⟨_, List.mem_finRange _, rfl⟩)

/-- The posted words are all different. -/
theorem postedOffsets_nodup : postedOffsets.Nodup := by
  unfold postedOffsets
  rw [List.nodup_append]
  refine ⟨by decide, ?_, ?_⟩
  · exact List.Nodup.map (fun a b h => (slotOffset_inj (by omega) (by omega) h).1) (List.nodup_finRange _)
  · intro a ha b hb hab
    subst hab
    obtain ⟨n, -, rfl⟩ := List.mem_map.1 hb
    have ht := toNat_slotOffset n (i := 2) (by omega)
    have hsmall : ∀ x ∈ ([0x010, 0x011, 0x014, 0x015, 0x016, 0x0C1, 0x0D1, 0x0E1, 0x0F1] : List Offset),
        x.toNat < 0x400 := by decide
    have := hsmall _ ha
    omega

/-! The requester code (R201). -/

/-- Each requester is the one its code names. -/
@[simp] theorem requesterOfCode_busCode (r : Requester) : requesterOfCode (busCode r) = r := by cases r <;> rfl

@[simp] theorem requesterOf_writeTxn (s : State) (r : Requester) (off : Offset) (lanes : Lanes) (data : Word32)
    (lock : Bool) : requesterOf (s.writeTxn r off lanes data lock) = r := requesterOfCode_busCode r

@[simp] theorem requesterOf_readTxn (r : Requester) (addr : BusAddr) (lanes : Lanes) (lock : Bool) :
    requesterOf (readTxn r addr lanes lock) = r := requesterOfCode_busCode r

end Sys2Proof.Machine
end

