-- ==== Sys2Proof/Laws/Posting.lean ====
section
/-! SUPPORT. The Posting Queue: what a turn takes out of it, and what giving it the words of an event leaves. -/

namespace Sys2Proof.Machine

open Sys2Proof.Safety

/-- The oldest entry that may issue stands behind entries of the locked word only (R165, R169). -/
theorem takeOldest_some {locked : Option Offset} {q rest : List Post} {o : Post}
    (h : takeOldest locked q = some (o, rest)) :
    ∃ before after, q = before ++ o :: after ∧ rest = before ++ after ∧ locked ≠ some o.offset ∧
      ∀ e ∈ before, locked = some e.offset := by
  induction q generalizing rest with
  | nil => simp [takeOldest] at h
  | cons e q ih =>
    unfold takeOldest at h
    split at h
    · rename_i hl
      cases hq : takeOldest locked q with
      | none => simp [hq] at h
      | some r =>
        obtain ⟨o', left⟩ := r
        simp only [hq, Option.some.injEq, Prod.mk.injEq] at h
        obtain ⟨rfl, rfl⟩ := h
        obtain ⟨before, after, rfl, rfl, h1, h2⟩ := ih hq
        exact ⟨e :: before, after, by simp, by simp, h1, by simpa using ⟨hl, h2⟩⟩
    · rename_i hl
      simp only [Option.some.injEq, Prod.mk.injEq] at h
      obtain ⟨rfl, rfl⟩ := h
      exact ⟨[], q, by simp, by simp, hl, by simp⟩

/-- No entry may issue exactly when every entry is of the locked word. -/
theorem takeOldest_none {locked : Option Offset} {q : List Post} :
    takeOldest locked q = none ↔ ∀ e ∈ q, locked = some e.offset := by
  induction q with
  | nil => simp [takeOldest]
  | cons e q ih =>
    unfold takeOldest
    split
    · rename_i hl
      cases hq : takeOldest locked q with
      | none => simpa [hl] using ih.1 hq
      | some r =>
        obtain ⟨o, left⟩ := r
        simp only [reduceCtorEq, false_iff]
        intro hall
        have := ih.2 fun x hx => hall x (by simp [hx])
        simp [hq] at this
    · rename_i hl
      simp [hl]

/-- The entry taken when entries of the locked word stand in front of it. -/
theorem takeOldest_of {locked : Option Offset} {before after : List Post} {o : Post}
    (hb : ∀ e ∈ before, locked = some e.offset) (ho : locked ≠ some o.offset) :
    takeOldest locked (before ++ o :: after) = some (o, before ++ after) := by
  induction before with
  | nil => simp [takeOldest, ho]
  | cons e q ih =>
    have h1 := ih fun x hx => hb x (by simp [hx])
    have h2 := hb e (by simp)
    simp only [List.cons_append, takeOldest, if_pos h2, h1]

/-- What joining leaves: the entry is queued, and everything queued before is queued or owed. -/
theorem joinPosts_spec (s : State) (e : Post) :
    ∃ p o, s.joinPosts e = { s with posts := p, owed := s.owed ++ o } ∧ e ∈ p ∧
      (∀ x, x ∈ p ++ o ↔ x ∈ s.posts ∨ x = e) ∧ o.length ≤ 1 ∧ (∀ x ∈ o, x ∈ s.posts) ∧
      (p ++ o).Perm (e :: s.posts) ∧
      (s.posts.length ≤ 16 → (s.posts.map Post.offset).Nodup → p.length ≤ 16) := by
  unfold State.joinPosts
  split
  · refine ⟨s.posts ++ [e], [], by simp, by simp, by simp, by simp, by simp, by simp, ?_⟩
    rename_i h; intro _ _; simp only [Config.postingDepth, List.length_append, List.length_cons, List.length_nil] at *; omega
  · cases hq : takeOldest s.lockedOffset s.posts with
    | some r =>
      obtain ⟨o, rest⟩ := r
      obtain ⟨before, after, h1, rfl, -, -⟩ := takeOldest_some hq
      refine ⟨before ++ after ++ [e], [o], rfl, by simp, ?_, by simp, by simp [h1], ?_, ?_⟩
      · intro x; simp only [h1, List.mem_append, List.mem_cons, List.not_mem_nil, or_false]; tauto
      · rw [h1]
        refine List.Perm.trans (List.perm_append_comm (l₁ := before ++ after ++ [e]) (l₂ := [o])) ?_
        have : (before ++ after ++ [e]).Perm (e :: (before ++ after)) := List.perm_append_comm (l₂ := [e])
        refine (List.Perm.cons o this).trans ?_
        refine (List.Perm.swap e o _).trans (List.Perm.cons e ?_)
        exact List.perm_middle.symm
      · intro hl _; rw [h1] at hl; simp at hl ⊢; omega
    | none =>
      refine ⟨s.posts ++ [e], [], by simp, by simp, by simp, by simp, by simp, by simp, ?_⟩
      intro hl hn
      exfalso
      have hall := takeOldest_none.1 hq
      rename_i h16
      have hlen : 2 ≤ s.posts.length := by simp only [Config.postingDepth] at h16; omega
      match hp : s.posts, hlen with
      | a :: b :: _, _ =>
        have ha := hall a (by simp [hp])
        have hb := hall b (by simp [hp])
        rw [ha] at hb
        simp [hp] at hn
        exact hn.1.1 (by simpa using hb)

/-- What joining several words leaves. -/
theorem joinAll_spec (fresh : List Post) (s : State) :
    ∃ p o, fresh.foldl State.joinPosts s = { s with posts := p, owed := s.owed ++ o } ∧
      (p ++ o).Perm (fresh.reverse ++ s.posts) ∧
      (s.posts.length ≤ 16 → ((s.posts ++ fresh).map Post.offset).Nodup → p.length ≤ 16) := by
  induction fresh generalizing s with
  | nil => exact ⟨s.posts, [], by simp, by simp, fun h _ => h⟩
  | cons e fresh ih =>
    obtain ⟨p, o, h, -, -, -, ho, hperm, hlen⟩ := joinPosts_spec s e
    obtain ⟨p', o', h', hperm', hlen'⟩ := ih (s.joinPosts e)
    refine ⟨p', o ++ o', ?_, ?_, ?_⟩
    · rw [List.foldl_cons, h', h]; simp
    · rw [h] at hperm'
      simp only at hperm'
      have h1 : (p' ++ (o ++ o')).Perm ((p' ++ o') ++ o) := by
        rw [List.append_assoc]; exact List.Perm.append_left _ List.perm_append_comm
      refine h1.trans ((hperm'.append_right o).trans ?_)
      rw [List.append_assoc]
      refine (List.Perm.append_left _ hperm).trans ?_
      simp
    · intro hl hn
      have hsub : (s.posts.map Post.offset).Nodup := by
        rw [List.map_append, List.nodup_append] at hn; exact hn.1
      apply hlen'
      · rw [h]; exact hlen hl hsub
      · rw [h]
        have hp2 : (p ++ fresh ++ o).Perm (s.posts ++ e :: fresh) := by
          have h1 : (p ++ fresh ++ o).Perm (p ++ o ++ fresh) := by
            rw [List.append_assoc, List.append_assoc]; exact List.Perm.append_left p List.perm_append_comm
          refine h1.trans ((hperm.append_right fresh).trans ?_)
          simpa using List.perm_middle.symm
        have := (hp2.map Post.offset).nodup_iff.2 hn
        simp only [List.map_append] at this ⊢
        exact (List.nodup_append.1 this).1

theorem replaceValues_map (given queue : List Post) :
    (replaceValues given queue).map Post.offset = queue.map Post.offset := by
  unfold replaceValues
  rw [List.map_map]
  apply List.map_congr_left
  intro e _
  simp only [Function.comp]
  cases h : given.find? fun g => decide (g.offset = e.offset) with
  | none => rfl
  | some g => simpa using List.find?_some h

theorem find?_given {given : List Post} {g : Post} (hn : (given.map Post.offset).Nodup) (hg : g ∈ given) :
    (given.find? fun x => decide (x.offset = g.offset)) = some g := by
  induction given with
  | nil => simp at hg
  | cons a given ih =>
    rw [List.map_cons, List.nodup_cons] at hn
    rcases List.mem_cons.1 hg with rfl | hg
    · simp
    · have hne : a.offset ≠ g.offset := fun e => hn.1 (e ▸ List.mem_map_of_mem hg)
      simp [hne, ih hn.2 hg]

/-- What giving words to the queue leaves (R164, R167), as what is queued or owed. -/
theorem givePosts_spec (s : State) (given : List Post) (hn : (given.map Post.offset).Nodup) :
    ∃ p o, s.givePosts given = { s with posts := p, owed := s.owed ++ o } ∧
      (∀ g ∈ given, g ∈ p ++ o) ∧
      (∀ e ∈ s.posts, e.offset ∉ given.map Post.offset → e ∈ p ++ o) ∧
      (∀ e ∈ p ++ o, e ∈ given ∨ (e ∈ s.posts ∧ e.offset ∉ given.map Post.offset)) ∧
      (PostingBounded s → (∀ g ∈ given, (placeOf g.offset).isPosted = true) →
        p.length ≤ 16 ∧ ((p ++ o).map Post.offset).Nodup) := by
  unfold State.givePosts
  obtain ⟨p, o, h, hperm, hlen⟩ := joinAll_spec
    (given.filter fun g => s.posts.all fun e => decide (e.offset ≠ g.offset))
    { s with posts := replaceValues given s.posts }
  simp only at hperm hlen
  have hmem : ∀ x, x ∈ p ++ o ↔ x ∈ replaceValues given s.posts ∨
      (x ∈ given ∧ ∀ e ∈ s.posts, e.offset ≠ x.offset) := by
    intro x
    rw [hperm.mem_iff]
    simp only [List.mem_append, List.mem_reverse, List.mem_filter, List.all_eq_true, decide_eq_true_eq]
    tauto
  have hrep : ∀ x, x ∈ replaceValues given s.posts ↔
      (x ∈ given ∧ x.offset ∈ s.posts.map Post.offset) ∨ (x ∈ s.posts ∧ x.offset ∉ given.map Post.offset) := by
    intro x
    unfold replaceValues
    simp only [List.mem_map]
    constructor
    · rintro ⟨e, he, hx⟩
      cases hf : given.find? fun g => decide (g.offset = e.offset) with
      | none =>
        rw [hf] at hx; subst hx
        right
        refine ⟨he, ?_⟩
        rintro ⟨g, hg, hge⟩
        have := List.find?_eq_none.1 hf g hg
        simp [hge] at this
      | some g =>
        rw [hf] at hx; subst hx
        left
        have : g.offset = e.offset := by simpa using List.find?_some hf
        exact ⟨List.mem_of_find?_eq_some hf, e, he, this.symm⟩
    · rintro (⟨hx, e, he, hex⟩ | ⟨hx, hno⟩)
      · refine ⟨e, he, ?_⟩
        rw [hex, find?_given hn hx]
      · refine ⟨x, hx, ?_⟩
        have : (given.find? fun g => decide (g.offset = x.offset)) = none := by
          rw [List.find?_eq_none]
          intro g hg
          simp only [decide_eq_true_eq]
          intro e
          exact hno ⟨g, hg, e⟩
        rw [this]
  refine ⟨p, o, h, ?_, ?_, ?_, ?_⟩
  · intro g hg
    rw [hmem, hrep]
    by_cases hx : g.offset ∈ s.posts.map Post.offset
    · exact .inl (.inl ⟨hg, hx⟩)
    · exact .inr ⟨hg, fun e he hoff => hx (hoff ▸ List.mem_map_of_mem he)⟩
  · intro e he hno
    rw [hmem, hrep]
    exact .inl (.inr ⟨he, hno⟩)
  · intro e he
    rw [hmem, hrep] at he
    rcases he with (⟨h1, -⟩ | h1) | ⟨h1, -⟩
    · exact .inl h1
    · exact .inr h1
    · exact .inl h1
  · rintro ⟨hb1, hb2, -⟩ -
    have hnod : ((replaceValues given s.posts ++
        given.filter fun g => s.posts.all fun e => decide (e.offset ≠ g.offset)).map Post.offset).Nodup := by
      rw [List.map_append, replaceValues_map, List.nodup_append]
      refine ⟨hb2, (hn.sublist (List.Sublist.map _ List.filter_sublist)), ?_⟩
      intro a ha b hb hab
      subst hab
      obtain ⟨x, hx, hxa⟩ := List.mem_map.1 ha
      obtain ⟨y, hy, hya⟩ := List.mem_map.1 hb
      have := (List.mem_filter.1 hy).2
      simp only [List.all_eq_true, decide_eq_true_eq] at this
      exact this x hx (hxa.trans hya.symm)
    refine ⟨hlen ?_ hnod, ?_⟩
    · have : (replaceValues given s.posts).length = s.posts.length := by simp [replaceValues]
      rw [this]; exact hb1
    · refine (hperm.map Post.offset).nodup_iff.2 ?_
      exact ((List.perm_append_comm.trans (List.Perm.append_right _ (List.reverse_perm _).symm)).map
        Post.offset).nodup_iff.1 hnod

/-! The words an event changed. -/

theorem givesPost_iff {before after : State} {off : Offset} (h : off ∈ postedOffsets) :
    givesPost before after off = true ↔ Given before after off := by
  simp [givesPost, Given, faultOffsets, h]

theorem mem_changedPosts {before after : State} {e : Post} : e ∈ changedPosts before after ↔
    Given before after e.offset ∧ e.value = after.postedValue e.offset := by
  obtain ⟨off, v⟩ := e
  simp only [changedPosts, List.mem_map, List.mem_filter, Post.mk.injEq]
  constructor
  · rintro ⟨o, ⟨h1, h2⟩, rfl, rfl⟩; exact ⟨(givesPost_iff h1).1 h2, rfl⟩
  · rintro ⟨h1, h2⟩; exact ⟨off, ⟨h1.1, (givesPost_iff h1.1).2 h1⟩, rfl, h2.symm⟩

theorem changedPosts_offsets (before after : State) :
    (changedPosts before after).map Post.offset = postedOffsets.filter (givesPost before after) := by
  simp [changedPosts, List.map_map, Function.comp_def]

theorem changedPosts_nodup (before after : State) : ((changedPosts before after).map Post.offset).Nodup := by
  rw [changedPosts_offsets]
  exact postedOffsets_nodup.filter _

/-- An event that changes no posted word and not the fault record gives nothing. -/
theorem changedPosts_eq_nil {before after : State} (hv : ∀ off, before.postedValue off = after.postedValue off)
    (hf : before.fault = after.fault) : changedPosts before after = [] := by
  simp [changedPosts, givesPost, hv, hf]

@[simp] theorem changedPosts_self (s : State) : changedPosts s s = [] := changedPosts_eq_nil (fun _ => rfl) rfl

theorem replaceValues_nil (q : List Post) : replaceValues [] q = q := by simp [replaceValues]

@[simp] theorem givePosts_nil (s : State) : s.givePosts [] = s := by simp [State.givePosts, replaceValues_nil]

end Sys2Proof.Machine
end

