-- ==== Sys2Proof/Laws/Owners.lean ====
section
/-! SUPPORT. What the owners of call state leave alone: no operation on slots, positions, the answer list or the mode
touches the bus, the Posting Queue, the call store, the clock, the straps, the settings or the sequencer. -/

namespace Sys2Proof.Machine

/-- `t` has everything of `s` that the owners of call state do not hold. -/
structure Kept (s t : State) : Prop where
  pins : t.pins = s.pins
  straps : t.straps = s.straps
  lock : t.lock = s.lock
  settings : t.settings = s.settings
  bus : t.bus = s.bus
  held : t.held = s.held
  reply : t.reply = s.reply
  secondAtSlots : t.secondAtSlots = s.secondAtSlots
  secondAtQueue : t.secondAtQueue = s.secondAtQueue
  prescaler : t.prescaler = s.prescaler
  callTicks : t.callTicks = s.callTicks
  divider : t.divider = s.divider
  cadence : t.cadence = s.cadence
  resetCause : t.resetCause = s.resetCause
  posts : t.posts = s.posts
  owed : t.owed = s.owed
  seq : t.seq = s.seq
  stage : t.stage = s.stage
  mem : t.mem = s.mem
  pending : t.pending = s.pending

theorem Kept.refl (s : State) : Kept s s := by constructor <;> rfl

theorem Kept.trans {s t u : State} (h : Kept s t) (k : Kept t u) : Kept s u := by
  constructor
  · exact k.pins.trans h.pins
  · exact k.straps.trans h.straps
  · exact k.lock.trans h.lock
  · exact k.settings.trans h.settings
  · exact k.bus.trans h.bus
  · exact k.held.trans h.held
  · exact k.reply.trans h.reply
  · exact k.secondAtSlots.trans h.secondAtSlots
  · exact k.secondAtQueue.trans h.secondAtQueue
  · exact k.prescaler.trans h.prescaler
  · exact k.callTicks.trans h.callTicks
  · exact k.divider.trans h.divider
  · exact k.cadence.trans h.cadence
  · exact k.resetCause.trans h.resetCause
  · exact k.posts.trans h.posts
  · exact k.owed.trans h.owed
  · exact k.seq.trans h.seq
  · exact k.stage.trans h.stage
  · exact k.mem.trans h.mem
  · exact k.pending.trans h.pending

theorem Kept.of_owners (s : State) (sl : Vector Slot 128) (al : List Listed) (ct : Vector Counters 32)
    (ps : Vector Position 4) (rl : List PosNo) (am : Mode) (rm : Service) (np : Bool) (sv : Option Tick)
    (la : BitVec 8) (fa : Option FaultEntry) (ov : BitVec 4) :
    Kept s { s with
      slots := sl, answerList := al, counters := ct, positions := ps, readyList := rl, actual := am, requested := rm
      nightPending := np, supervision := sv, latched := la, fault := fa, overflow := ov } := by
  constructor <;> rfl

theorem kept_setSlot (s : State) (n : SlotNo) (v : Slot) : Kept s (s.setSlot n v) := by constructor <;> rfl
theorem kept_setPos (s : State) (p : PosNo) (v : Position) : Kept s (s.setPos p v) := by constructor <;> rfl
theorem kept_setCounts (s : State) (g : GroupNo) (v : Counters) : Kept s (s.setCounts g v) := by constructor <;> rfl
theorem kept_latch (s : State) (c : BitVec 8) : Kept s (s.latch c) := by constructor <;> rfl
theorem kept_readyList (s : State) (l : List PosNo) : Kept s { s with readyList := l } := by constructor <;> rfl
theorem kept_unlist (s : State) (n : SlotNo) : Kept s (s.unlist n) := by constructor <;> rfl
theorem kept_freeSlot (s : State) (n : SlotNo) : Kept s (s.freeSlot n) := by constructor <;> rfl
theorem kept_recallSlot (s : State) (n : SlotNo) : Kept s (s.recallSlot n) := by constructor <;> rfl
theorem kept_becomeReady (s : State) (p : PosNo) : Kept s (s.becomeReady p) := by constructor <;> rfl
theorem kept_becomeClosed (s : State) (p : PosNo) : Kept s (s.becomeClosed p) := by constructor <;> rfl
theorem kept_becomeWrapup (s : State) (p : PosNo) : Kept s (s.becomeWrapup p) := by constructor <;> rfl
theorem kept_presentTo (s : State) (n : SlotNo) (p : PosNo) : Kept s (s.presentTo n p) := by constructor <;> rfl
theorem kept_offerTo (s : State) (n : SlotNo) (p : PosNo) : Kept s (s.offerTo n p) := by constructor <;> rfl
theorem kept_enterNight (s : State) : Kept s s.enterNight := by constructor <;> rfl
theorem kept_enterDay (s : State) : Kept s s.enterDay := by constructor <;> rfl
theorem kept_armSupervision (s : State) : Kept s s.armSupervision := by constructor <;> rfl

theorem kept_raiseFault (s : State) (f : FaultEntry) : Kept s (s.raiseFault f) := by
  unfold State.raiseFault; split <;> (constructor <;> rfl)

theorem kept_acknowledge (s : State) (c : BitVec 8) : Kept s (s.acknowledge c) := by
  unfold State.acknowledge; dsimp only; split <;> (constructor <;> rfl)

theorem kept_withdraw (s : State) (p : PosNo) : Kept s (s.withdraw p) := by
  unfold State.withdraw; split <;> (constructor <;> rfl)

theorem kept_presentAll (k : Nat) (s : State) : Kept s (State.presentAll k s) := by
  induction k generalizing s with
  | zero => exact Kept.refl s
  | succ k ih =>
    unfold State.presentAll
    split
    · exact (kept_presentTo s _ _).trans (ih _)
    · exact Kept.refl s

theorem kept_offerAll (k : Nat) (s : State) : Kept s (State.offerAll k s) := by
  induction k generalizing s with
  | zero => exact Kept.refl s
  | succ k ih =>
    unfold State.offerAll
    split
    · split
      · split
        · exact (kept_offerTo s _ _).trans (ih _)
        · exact Kept.refl s
      · exact Kept.refl s
    · exact Kept.refl s

theorem kept_arbitrate (s : State) : Kept s s.arbitrate := (kept_presentAll _ s).trans (kept_offerAll _ _)

theorem kept_arbitrateAfter (s : State) (p : PosNo) (old : Position) : Kept s (s.arbitrateAfter p old) := by
  unfold State.arbitrateAfter; split
  · exact kept_arbitrate s
  · exact Kept.refl s

theorem kept_retest (s : State) (p : PosNo) : Kept s (s.retest p) := by
  unfold State.retest
  split
  · exact Kept.refl s
  · split
    · exact Kept.refl s
    · exact kept_withdraw s p

theorem kept_popStack (s : State) (p : PosNo) (top : StackEntry) (rest : List StackEntry) :
    Kept s (s.popStack p top rest) :=
  ((kept_setSlot s _ _).trans (kept_setPos _ _ _)).trans (kept_retest _ _)

theorem kept_drained (s : State) : Kept s s.drained := by
  unfold State.drained; split
  · exact kept_enterNight s
  · exact Kept.refl s

theorem kept_leaveEngaged (s : State) (p : PosNo) (h : Bool) : Kept s (s.leaveEngaged p h) := by
  unfold State.leaveEngaged; dsimp only
  split
  · exact ((kept_withdraw s p).trans (kept_becomeClosed _ _)).trans (kept_drained _)
  · split
    · exact (kept_withdraw s p).trans (kept_becomeReady _ _)
    · exact (kept_withdraw s p).trans (kept_becomeWrapup _ _)

theorem kept_leaveCall (s : State) (p : PosNo) (h : Bool) : Kept s (s.leaveCall p h) := by
  unfold State.leaveCall; split
  · exact kept_popStack s _ _ _
  · exact kept_leaveEngaged s p h

theorem kept_releasePresenter (s : State) (p : PosNo) : Kept s (s.releasePresenter p) := by
  unfold State.releasePresenter; split
  · exact kept_becomeReady s p
  · exact kept_setPos s _ _

theorem kept_nightClose (s : State) (p : PosNo) : Kept s (s.nightClose p) := by
  unfold State.nightClose; split
  · exact Kept.refl s
  · exact (kept_withdraw s p).trans (kept_setPos _ _ _)
  · exact (kept_withdraw s p).trans (kept_becomeClosed _ _)

theorem kept_foldPositions {f : State → PosNo → State} (hf : ∀ s p, Kept s (f s p)) (l : List PosNo) (s : State) :
    Kept s (l.foldl f s) := by
  induction l generalizing s with
  | nil => exact Kept.refl s
  | cons p l ih => exact (hf s p).trans (ih _)

theorem kept_nightRequest (s : State) : Kept s s.nightRequest := by
  have h : Kept s (allPositions.foldl State.nightClose s) := kept_foldPositions kept_nightClose _ s
  unfold State.nightRequest; dsimp only
  split
  · exact h.trans (kept_enterNight _)
  · exact h.trans (by constructor <;> rfl)

theorem kept_takeMode (s : State) (v : Service) : Kept s (s.takeMode v) := by
  have h : Kept s { s with requested := v } := by constructor <;> rfl
  unfold State.takeMode; dsimp only
  split
  · split
    · exact h
    · exact h.trans (kept_nightRequest _)
  · split
    · exact (h.trans (by constructor <;> rfl)).trans (kept_arbitrate _)
    · exact h
  · exact (h.trans (kept_enterDay _)).trans (kept_arbitrate _)
  · exact h
  · exact h

theorem kept_takeHeartbeat (s : State) : Kept s s.takeHeartbeat := by
  unfold State.takeHeartbeat
  split
  · exact kept_armSupervision s
  · exact Kept.refl s
  · split
    · exact ((kept_enterDay s).trans (by constructor <;> rfl)).trans (kept_arbitrate _)
    · exact (kept_enterDay s).trans (kept_nightRequest _)

theorem kept_lapsePosition (s : State) (p : PosNo) : Kept s (s.lapsePosition p) := by
  unfold State.lapsePosition; split
  · exact (kept_withdraw s p).trans (kept_becomeReady _ _)
  · exact kept_withdraw s p
  · exact Kept.refl s

theorem kept_lapse (s : State) : Kept s s.lapse := by
  have h : Kept s { s with supervision := none, actual := .lapsed } := by constructor <;> rfl
  exact (h.trans (kept_foldPositions kept_lapsePosition _ _)).trans (kept_latch _ _)

/-! Line events, actions and CONTROL commands. -/

theorem kept_offerEvent (s : State) (n : SlotNo) (g : GroupNo) : Kept s (s.offerEvent n g).state := by
  unfold State.offerEvent
  split
  · split
    · exact Kept.refl s
    · exact Kept.trans (by constructor <;> rfl) (kept_arbitrate _)
  · exact Kept.refl s

theorem kept_abandonWaiting (s : State) (n : SlotNo) : Kept s (s.abandonWaiting n) := by constructor <;> rfl

theorem kept_abandonEvent (s : State) (n : SlotNo) : Kept s (s.abandonEvent n).state := by
  unfold State.abandonEvent
  split
  · exact Kept.refl s
  · exact kept_abandonWaiting s n
  · exact kept_abandonWaiting s n
  · show Kept s (s.abandonPresented n)
    unfold State.abandonPresented; dsimp only
    split
    · exact ((kept_abandonWaiting s n).trans (kept_releasePresenter _ _)).trans (kept_arbitrate _)
    · exact (kept_abandonWaiting s n).trans (kept_arbitrate _)
  · show Kept s (s.abandonTalking n)
    unfold State.abandonTalking
    split
    · exact ((kept_freeSlot s n).trans (kept_leaveCall _ _ _)).trans (kept_arbitrateAfter _ _ _)
    · exact kept_freeSlot s n
  · show Kept s (s.abandonSplit n)
    unfold State.abandonSplit
    split
    · exact ((kept_freeSlot s n).trans (kept_setPos _ _ _)).trans (kept_arbitrateAfter _ _ _)
    · exact kept_freeSlot s n
  · exact kept_freeSlot s n
  · exact kept_freeSlot s n
  · exact kept_freeSlot s n

theorem kept_lineEvent (s : State) (n : SlotNo) (code : BitVec 8) (g : GroupNo) :
    Kept s (s.lineEvent n code g).state := by
  unfold State.lineEvent
  split
  · exact kept_offerEvent s n g
  · exact kept_abandonEvent s n
  · unfold State.extAnswerEvent; split
    · exact kept_freeSlot s n
    · exact Kept.refl s
  · unfold State.extBusyEvent; split
    · exact kept_setSlot s _ _
    · exact Kept.refl s
  · unfold State.extFreeEvent; split
    · exact kept_setSlot s _ _
    · exact Kept.refl s
  · unfold State.extFailEvent; split
    · exact (kept_recallSlot s n).trans (kept_arbitrate _)
    · exact Kept.refl s
  · exact Kept.refl s

theorem kept_pushTalking (s : State) (p : PosNo) : Kept s (s.pushTalking p) := by
  unfold State.pushTalking; split
  · exact (kept_setSlot s _ _).trans (kept_setPos _ _ _)
  · exact Kept.refl s

theorem kept_endElsewhere (s : State) (n : SlotNo) (p : PosNo) : Kept s (s.endElsewhere n p) := by
  unfold State.endElsewhere
  split
  · split
    · exact Kept.refl s
    · exact kept_releasePresenter s _
  · exact Kept.refl s

theorem kept_clearForAnswer (s : State) (n : SlotNo) (p : PosNo) : Kept s (s.clearForAnswer n p) := by
  unfold State.clearForAnswer
  split
  · exact (kept_endElsewhere s n p).trans (kept_withdraw _ _)
  · exact kept_endElsewhere s n p

theorem kept_answerTaken (s : State) (n : SlotNo) (p : PosNo) : Kept s (s.answerTaken n p) := by
  have h : Kept s ((s.clearForAnswer n p).pushTalking p) := (kept_clearForAnswer s n p).trans (kept_pushTalking _ p)
  unfold State.answerTaken; dsimp only
  refine Kept.trans ?_ (kept_arbitrate _)
  refine Kept.trans ?_ (kept_retest _ _)
  have k := ((h.trans (kept_setSlot _ n ((s.slot n).answeredAt p (s.classOf n)))).trans
    (kept_setPos _ p ((((s.clearForAnswer n p).pushTalking p).pos p).engagedWith n (s.classOf n)))).trans
    (kept_readyList _ (withoutPos ((s.clearForAnswer n p).pushTalking p).readyList p))
  split
  · exact (k.trans (kept_unlist _ n)).trans (kept_setCounts _ _ _)
  · exact k

theorem kept_swapTaken (s : State) (n : SlotNo) (p : PosNo) (top : StackEntry) (rest : List StackEntry) :
    Kept s (s.swapTaken n p top rest) := by
  unfold State.swapTaken; dsimp only
  exact Kept.trans (Kept.trans (Kept.trans (by constructor <;> rfl) (kept_setPos _ _ _)) (kept_retest _ _))
    (kept_arbitrate _)

theorem kept_actionEvent (s : State) (n : SlotNo) (code field : BitVec 8) :
    Kept s (s.actionEvent n code field).state := by
  unfold State.actionEvent
  split
  · exact Kept.refl s
  · split
    · exact Kept.refl s
    · split
      · unfold State.answerAction; split_ifs <;> first | exact Kept.refl s | exact kept_answerTaken s _ _
      · unfold State.holdAction; split
        · exact Kept.refl s
        · exact ((kept_setSlot s _ _).trans (kept_leaveCall _ _ _)).trans (kept_arbitrateAfter _ _ _)
      · unfold State.swapAction; split
        · exact Kept.refl s
        · split
          · exact Kept.refl s
          · exact kept_swapTaken s _ _ _ _
      · unfold State.extendAction; split
        · exact Kept.refl s
        · exact ((kept_setSlot s _ _).trans (kept_leaveCall _ _ _)).trans (kept_arbitrateAfter _ _ _)
      · unfold State.releaseAction; split
        · exact kept_freeSlot s n
        · split
          · exact Kept.refl s
          · exact ((kept_freeSlot s _).trans (kept_leaveCall _ _ _)).trans (kept_arbitrateAfter _ _ _)

theorem kept_controlEvent (s : State) (p : PosNo) (code : BitVec 8) : Kept s (s.controlEvent p code).state := by
  unfold State.controlEvent
  split
  · split
    · split
      · exact Kept.refl s
      · show Kept s (s.openTaken p)
        unfold State.openTaken; split
        · exact ((kept_setPos s _ _).trans (kept_becomeReady _ _)).trans (kept_arbitrate _)
        · exact Kept.refl s
    · exact Kept.refl s
  · split
    · show Kept s (s.closeTaken p)
      unfold State.closeTaken; split
      · exact Kept.refl s
      · exact kept_becomeClosed s p
      · exact kept_becomeClosed s p
      · exact ((kept_withdraw s p).trans (kept_becomeClosed _ _)).trans (kept_arbitrate _)
      · exact ((kept_withdraw s p).trans (kept_setPos _ _ _)).trans (kept_arbitrateAfter _ _ _)
    · exact Kept.refl s
  · exact Kept.refl s

end Sys2Proof.Machine
end

