-- ==== Sys2Proof/Laws/Positions.lean ====
section
/-! SUPPORT. What each move of a position leaves in the position and slot records. -/

namespace Sys2Proof.Machine

theorem State.pos_becomeReady (s : State) (p q : PosNo) :
    (s.becomeReady p).pos q = if q = p then (s.pos p).bare .ready else s.pos q := State.pos_setPos s p q _

theorem State.pos_becomeClosed (s : State) (p q : PosNo) :
    (s.becomeClosed p).pos q = if q = p then (s.pos p).bare .closed else s.pos q := State.pos_setPos s p q _

theorem State.pos_becomeWrapup (s : State) (p q : PosNo) : (s.becomeWrapup p).pos q =
    if q = p then { (s.pos p).bare .wrapup with wrapDeadline := s.arm s.settings.wrapGuard } else s.pos q :=
  State.pos_setPos s p q _

@[simp] theorem State.slot_becomeReady (s : State) (p : PosNo) (n : SlotNo) : (s.becomeReady p).slot n = s.slot n := rfl
@[simp] theorem State.slot_becomeClosed (s : State) (p : PosNo) (n : SlotNo) : (s.becomeClosed p).slot n = s.slot n := rfl
@[simp] theorem State.slot_becomeWrapup (s : State) (p : PosNo) (n : SlotNo) : (s.becomeWrapup p).slot n = s.slot n := rfl

/-- A position that presents nothing is left as it is (R88). -/
theorem State.withdraw_none {s : State} {p : PosNo} (h : (s.pos p).presented = none) : s.withdraw p = s := by
  simp [State.withdraw, h]

/-- A withdrawal (R88). -/
theorem State.withdraw_some {s : State} {p : PosNo} {n : SlotNo} (h : (s.pos p).presented = some n) :
    s.withdraw p = (s.returnSlot n).setPos p { s.pos p with presented := none } := by
  simp [State.withdraw, h]

theorem State.pos_withdraw (s : State) (p q : PosNo) :
    (s.withdraw p).pos q = if q = p then { s.pos p with presented := none } else s.pos q := by
  cases h : (s.pos p).presented with
  | none =>
    rw [State.withdraw_none h]
    by_cases hq : q = p
    · subst hq; rw [if_pos rfl, ← h]
    · rw [if_neg hq]
  | some n => rw [State.withdraw_some h, State.pos_setPos]; rfl

theorem State.slot_withdraw (s : State) (p : PosNo) (n : SlotNo) :
    (s.withdraw p).slot n = if (s.pos p).presented = some n then (s.slot n).returned else s.slot n := by
  cases h : (s.pos p).presented with
  | none => rw [State.withdraw_none h]; simp
  | some m =>
    rw [State.withdraw_some h, State.slot_setPos, State.returnSlot, State.slot_setSlot]
    by_cases hn : n = m
    · subst hn; simp
    · rw [if_neg hn, if_neg (by simpa using fun e => hn e.symm)]

theorem State.readyList_withdraw (s : State) (p : PosNo) : (s.withdraw p).readyList = s.readyList := by
  unfold State.withdraw; split <;> rfl

theorem State.pos_presentTo (s : State) (n : SlotNo) (p q : PosNo) : (s.presentTo n p).pos q =
    if q = p then { (s.pos p).bare .presenting with presented := some n } else s.pos q := State.pos_setPos _ p q _

theorem State.slot_presentTo (s : State) (n m : SlotNo) (p : PosNo) : (s.presentTo n p).slot m =
    if m = n then (s.slot n).presentedAt p false (s.arm s.settings.present) else s.slot m := State.slot_setSlot s n m _

theorem State.pos_offerTo (s : State) (n : SlotNo) (p q : PosNo) : (s.offerTo n p).pos q =
    if q = p then { s.pos p with presented := some n } else s.pos q := State.pos_setPos _ p q _

theorem State.slot_offerTo (s : State) (n m : SlotNo) (p : PosNo) : (s.offerTo n p).slot m =
    if m = n then (s.slot n).presentedAt p true (s.arm s.settings.present) else s.slot m := State.slot_setSlot s n m _

theorem State.pos_releasePresenter (s : State) (p q : PosNo) : (s.releasePresenter p).pos q =
    if q = p then (if (s.pos p).state = .presenting then (s.pos p).bare .ready else { s.pos p with presented := none })
    else s.pos q := by
  unfold State.releasePresenter
  split
  · rename_i h; rw [State.pos_becomeReady, if_pos h]
  · rename_i h; rw [State.pos_setPos, if_neg h]

end Sys2Proof.Machine
end

