-- ==== Sys2Proof/Laws/Traffic.lean ====
section
/-! SUPPORT. What a window write leaves, once for every command: its posts, its own access, and how a transaction on
the free bus comes to its effect. -/

namespace Sys2Proof.Machine

open Sys2Proof.Safety

/-- `t` has the bus side of `s`: lock, Posting Queue, waiting transaction, call store and straps. -/
structure BusKept (s t : State) : Prop where
  straps : t.straps = s.straps
  posts : t.posts = s.posts
  owed : t.owed = s.owed
  held : t.held = s.held
  reply : t.reply = s.reply
  mem : t.mem = s.mem

theorem Kept.bus_kept {s t : State} (h : Kept s t) : BusKept s t :=
  ⟨h.straps, h.posts, h.owed, h.held, h.reply, h.mem⟩

/-- The part's value of a word does not depend on the lock, the Posting Queue, the waiting access or the call store. -/
theorem overlay_bus (s : State) (l : Option Lock) (p o : List Post) (b : List Txn) (h : Option Held) (m : Memory)
    (r : Option Word32) (pl : Place) :
    ({ s with lock := l, posts := p, owed := o, bus := b, held := h, mem := m, reply := r } : State).overlay pl =
      s.overlay pl := by
  cases pl <;> rfl

theorem postedValue_bus (s : State) (l : Option Lock) (p o : List Post) (b : List Txn) (h : Option Held) (m : Memory)
    (r : Option Word32) (off : Offset) :
    ({ s with lock := l, posts := p, owed := o, bus := b, held := h, mem := m, reply := r } : State).postedValue off =
      s.postedValue off := by
  simp only [State.postedValue, overlay_bus]

/-- What an event gives the Posting Queue does not depend on the bus side either. -/
theorem given_bus (s q : State) (l : Option Lock) (p o : List Post) (b : List Txn) (h : Option Held) (m : Memory)
    (r : Option Word32) (off : Offset) :
    Given s { q with lock := l, posts := p, owed := o, bus := b, held := h, mem := m, reply := r } off ↔
      Given s q off := by
  simp only [Given, postedValue_bus]

/-- What the end of an event leaves: the changed posted words are queued or owed (R163, R164, R167). -/
theorem posting_spec (s q : State) (hp : q.posts = s.posts) (ho : q.owed = s.owed) :
    ∃ p o, q.posting s = { q with posts := p, owed := s.owed ++ o } ∧
      ∀ (l : Option Lock) (b : List Txn) (h : Option Held) (m : Memory) (r : Option Word32),
        PostsFollow s { q with lock := l, posts := p, owed := s.owed ++ o, bus := b, held := h, mem := m, reply := r }
          none := by
  obtain ⟨p, o, h, hin, hold, hall, -⟩ := givePosts_spec q (changedPosts s q) (changedPosts_nodup s q)
  rw [ho] at h
  rw [hp] at hold hall
  refine ⟨p, o, h, fun l b hd m r => ⟨⟨o, rfl⟩, ?_, ?_, ?_, by simp⟩⟩
  · intro off hg _
    rw [given_bus] at hg
    rw [postedValue_bus q]
    have := hin ⟨off, q.postedValue off⟩ (mem_changedPosts.2 ⟨hg, rfl⟩)
    simp only [List.mem_append] at this ⊢
    tauto
  · intro e he _ heq
    rw [given_bus] at heq
    have hno : e.offset ∉ (changedPosts s q).map Post.offset := by
      rw [changedPosts_offsets, List.mem_filter]
      exact fun h => heq ((givesPost_iff h.1).1 h.2)
    have := hold e he hno
    simp only [List.mem_append] at this ⊢
    tauto
  · intro e he
    rw [postedValue_bus q, given_bus]
    simp only [List.mem_append] at he
    by_cases hs : e ∈ s.owed
    · exact .inr (.inl hs)
    · have hpo : e ∈ p ++ o := by simp only [List.mem_append]; tauto
      rcases hall e hpo with h1 | ⟨h1, -⟩
      · exact .inr (.inr (mem_changedPosts.1 h1))
      · exact .inl h1

/-- The same where the event's own write carries the word at `off` (R170). -/
theorem postingExcept_spec (s q : State) (off : Offset) (hp : q.posts = s.posts) (ho : q.owed = s.owed) :
    ∃ p o, q.postingExcept s off = { q with posts := p, owed := s.owed ++ o } ∧
      ∀ (l : Option Lock) (b : List Txn) (h : Option Held) (m : Memory) (r : Option Word32),
        PostsFollow s { q with lock := l, posts := p, owed := s.owed ++ o, bus := b, held := h, mem := m, reply := r }
          (some off) := by
  have hn : (((changedPosts s q).filter fun g => decide (g.offset ≠ off)).map Post.offset).Nodup :=
    (changedPosts_nodup s q).sublist (List.Sublist.map _ List.filter_sublist)
  obtain ⟨p, o, h, hin, hold, hall, -⟩ := givePosts_spec (q.dropPost off) _ hn
  have h' : q.postingExcept s off = { q with posts := p, owed := s.owed ++ o } := by
    rw [← ho]; exact h
  simp only [State.dropPost, hp] at hold hall
  refine ⟨p, o, h', fun l b hd m r => ⟨⟨o, rfl⟩, ?_, ?_, ?_, ?_⟩⟩
  · intro w hg hc
    rw [given_bus] at hg
    rw [postedValue_bus q]
    have hwo : w ≠ off := fun e => hc (by rw [e])
    have := hin ⟨w, q.postedValue w⟩ (List.mem_filter.2 ⟨mem_changedPosts.2 ⟨hg, rfl⟩, by simpa using hwo⟩)
    simp only [List.mem_append] at this ⊢
    tauto
  · intro e he hc heq
    rw [given_bus] at heq
    have heo : e.offset ≠ off := fun x => hc (by rw [x])
    have hno : e.offset ∉ ((changedPosts s q).filter fun g => decide (g.offset ≠ off)).map Post.offset := by
      intro hm
      obtain ⟨g, hg, hge⟩ := List.mem_map.1 hm
      have := (mem_changedPosts.1 (List.mem_filter.1 hg).1).1
      rw [hge] at this
      exact heq this
    have := hold e (List.mem_filter.2 ⟨he, by simpa using heo⟩) hno
    simp only [List.mem_append] at this ⊢
    tauto
  · intro e he
    rw [postedValue_bus q, given_bus]
    simp only [List.mem_append] at he
    by_cases hs : e ∈ s.owed
    · exact .inr (.inl hs)
    · have hpo : e ∈ p ++ o := by simp only [List.mem_append]; tauto
      rcases hall e hpo with h1 | ⟨h1, -⟩
      · exact .inr (.inr (mem_changedPosts.1 (List.mem_filter.1 h1).1))
      · exact .inl (List.mem_filter.1 h1).1
  · intro e he hc
    have hpo : e ∈ p ++ o := by simp only [List.mem_append]; tauto
    injection hc with hc
    rcases hall e hpo with h1 | ⟨h1, -⟩
    · simpa [hc] using (List.mem_filter.1 h1).2
    · simpa [hc] using (List.mem_filter.1 h1).2

/-- The own access of a write: made when nothing is owed, held otherwise (R134, R167). -/
theorem complete_write (s q : State) (txn : Txn) (b : List Post) (addr : BusAddr) (lanes : Lanes) (data : Word32)
    (hm : q.mem = s.mem) (hw : s.mem.wf = true) (hh : q.held = none) (hr : q.reply = s.reply) :
    ∃ h m r, q.complete txn b (.write addr lanes data) = { q with held := h, mem := m, reply := r } ∧
      WriteLands s { q with held := h, mem := m, reply := r } txn addr lanes data := by
  by_cases ho : q.owed = []
  · refine ⟨none, q.mem.writeWord addr lanes data, none, ?_, ?_⟩
    · simp only [State.complete, ho, List.isEmpty_nil, Bool.true_or, if_true, State.perform]
      rw [← hh]
    · simp only [WriteLands, ho, if_true, true_and]
      refine ⟨?_, fun a ha => ?_⟩
      · rw [hm]; exact Memory.readWord_writeWord_same addr lanes data hw
      · rw [hm]; exact Memory.read_writeWord_ne _ addr lanes data ha
  · refine ⟨some ⟨txn, .write addr lanes data, q.owed.length⟩, q.mem, q.reply, ?_, ?_⟩
    · simp [State.complete, ho]
    · simp only [WriteLands, ho, if_false]
      exact ⟨trivial, hm, hr⟩

/-- A write whose access is a plain write of `data` and carries no posted word. -/
theorem finishWrite_done {s : State} (hs : Serving s) (txn : Txn) (off : Offset) (q : State) (lanes : Lanes)
    (data : Word32) (hk : BusKept s q) :
    WriteDone s q (s.finishWrite txn (lockAfter s.lock txn off) ⟨q, .write (s.addr off) lanes data, none⟩) txn off lanes
      data := by
  obtain ⟨p, o, hpo, hfollow⟩ := posting_spec s { q with lock := lockAfter s.lock txn off } hk.posts hk.owed
  obtain ⟨h, m, r, hc, hl⟩ := complete_write s
    { q with lock := lockAfter s.lock txn off, posts := p, owed := s.owed ++ o } txn s.owed (s.addr off) lanes data
    hk.mem hs.2.2.2 (hk.held.trans hs.2.1) hk.reply
  have : s.finishWrite txn (lockAfter s.lock txn off) ⟨q, .write (s.addr off) lanes data, none⟩ = { q with
      lock := lockAfter s.lock txn off, posts := p, owed := s.owed ++ o, held := h, mem := m, reply := r } := by
    unfold State.finishWrite
    dsimp only
    rw [hpo]
    exact hc
  rw [this]
  exact ⟨rfl, rfl, hfollow _ _ _ _ _, hl⟩

/-- A write that carries the posted word at `off` itself. -/
theorem finishWrite_carried {s : State} (hs : Serving s) (txn : Txn) (off : Offset) (q : State) (hk : BusKept s q) :
    CarriedDone s q (s.finishWrite txn (lockAfter s.lock txn off)
      ⟨q, .write (s.addr off) fullLanes (q.postedValue off), some off⟩) txn off := by
  obtain ⟨p, o, hpo, hfollow⟩ := postingExcept_spec s { q with lock := lockAfter s.lock txn off } off hk.posts hk.owed
  obtain ⟨h, m, r, hc, hl⟩ := complete_write s
    { q with lock := lockAfter s.lock txn off, posts := p, owed := s.owed ++ o } txn s.owed (s.addr off) fullLanes
    (q.postedValue off) hk.mem hs.2.2.2 (hk.held.trans hs.2.1) hk.reply
  have : s.finishWrite txn (lockAfter s.lock txn off)
      ⟨q, .write (s.addr off) fullLanes (q.postedValue off), some off⟩ = { q with
      lock := lockAfter s.lock txn off, posts := p, owed := s.owed ++ o, held := h, mem := m, reply := r } := by
    unfold State.finishWrite
    dsimp only
    rw [hpo]
    exact hc
  rw [this]
  refine ⟨rfl, rfl, hfollow _ _ _ _ _, ?_⟩
  rw [postedValue_bus q]
  exact hl

/-- An event inside the part gives its posts, and nothing else changes. -/
theorem posting_done (s q : State) (hp : q.posts = s.posts) (ho : q.owed = s.owed) : EventDone s q (q.posting s) := by
  obtain ⟨p, o, h, hf⟩ := posting_spec s q hp ho
  rw [h]
  exact ⟨rfl, hf _ _ _ _ _⟩

/-- A window transaction issued in RUN on the free bus is taken at once (R147, steps 1 to 3). -/
theorem arrive_serving {s : State} (hs : Serving s) (txn : Txn) (off : Offset) (ha : txn.addr = s.addr off) :
    s.arrive txn = s.takeWindow txn off := by
  obtain ⟨h1, h2, h3, -⟩ := hs
  simp [State.arrive, State.busBusy, h2, h3, State.take, ha, h1]

theorem takeWindow_write (s : State) (txn : Txn) (off : Offset) (hw : txn.write = true) : s.takeWindow txn off =
    s.finishWrite txn (lockAfter s.lock txn (s.reach off).offset) (s.writeEffect txn (s.reach off)) := by
  simp [State.takeWindow, hw]

/-- A write with the right in RUN on the free bus whose effect is a plain write of `data` at the word reached. -/
theorem arrive_done {s : State} (hs : Serving s) (r : Requester) (off word : Offset) (lanes wl : Lanes)
    (data wd : Word32) (lock : Bool) (q : State) (hreach : (s.reach off).offset = word)
    (heff : s.writeEffect (s.writeTxn r off lanes data lock) (s.reach off) = ⟨q, .write (s.addr word) wl wd, none⟩)
    (hk : BusKept s q) :
    WriteDone s q (s.arrive (s.writeTxn r off lanes data lock)) (s.writeTxn r off lanes data lock) word wl wd := by
  rw [arrive_serving hs _ off rfl, takeWindow_write _ _ _ rfl, heff, hreach]
  exact finishWrite_done hs _ word q wl wd hk

/-- The same for a write that carries the posted word it reaches. -/
theorem arrive_carried {s : State} (hs : Serving s) (r : Requester) (off word : Offset) (lanes : Lanes)
    (data : Word32) (lock : Bool) (q : State) (hreach : (s.reach off).offset = word)
    (heff : s.writeEffect (s.writeTxn r off lanes data lock) (s.reach off) =
      ⟨q, .write (s.addr word) fullLanes (q.postedValue word), some word⟩) (hk : BusKept s q) :
    CarriedDone s q (s.arrive (s.writeTxn r off lanes data lock)) (s.writeTxn r off lanes data lock) word := by
  rw [arrive_serving hs _ off rfl, takeWindow_write _ _ _ rfl, heff, hreach]
  exact finishWrite_carried hs _ word q hk

/-! The words the command paths reach. -/

/-- A word that is no view word is reached itself. -/
theorem reach_of_placeOf (s : State) (off : Offset) (h : ∀ p i, placeOf off ≠ .view p i) :
    s.reach off = ⟨off, placeOf off, none⟩ := by
  unfold State.reach
  split
  · rename_i p i e; exact absurd e (h p i)
  · rfl

/-- The position whose view a path goes through. -/
def pathVia : CallPath → Option PosNo
  | .slot _ => none
  | .view p => some p

/-- Word `i`, 0 or 1, of the slot a path reaches (R157). -/
theorem reach_path {s : State} {path : CallPath} {n : SlotNo} (i : Fin 2) (h : PathReaches s path n) :
    s.reach (pathOffset path i.val) = ⟨slotOffset n i.val, slotPlace n i.val, pathVia path⟩ := by
  cases path with
  | slot m =>
    obtain rfl : m = n := h
    have hp : placeOf (slotOffset m i.val) = slotPlace m i.val := placeOf_slotOffset m (by omega)
    have := reach_of_placeOf s (slotOffset m i.val) (by
      rw [hp]; intro p j; fin_cases i <;> simp [slotPlace])
    rw [hp] at this
    exact this
  | view p =>
    have hp : placeOf (blockOffset p (8 + i.val)) = .view p ⟨i.val, by omega⟩ := placeOf_view p ⟨i.val, by omega⟩
    have hc : s.currentSlot p = some n := h
    simp [State.reach, pathOffset, hp, hc, pathVia]

/-- A write that changes no owner gives the Posting Queue nothing. -/
theorem finishWrite_self (s : State) (txn : Txn) (l : Option Lock) (a : Access) :
    s.finishWrite txn l ⟨s, a, none⟩ = { s with lock := l }.complete txn s.owed a := by
  have : changedPosts s { s with lock := l } = [] := by
    refine changedPosts_eq_nil (fun off => ?_) rfl
    exact (postedValue_bus s l s.posts s.owed s.bus s.held s.mem s.reply off).symm
  simp [State.finishWrite, State.posting, this]

/-- A completed or held access leaves the Posting Queue, but for a RESTART. -/
theorem complete_posts (s : State) (txn : Txn) (b : List Post) (addr : BusAddr) (lanes : Lanes) (data : Word32) :
    (s.complete txn b (.write addr lanes data)).posts = s.posts ∧
      (s.complete txn b (.write addr lanes data)).owed = s.owed := by
  unfold State.complete; split <;> exact ⟨rfl, rfl⟩

/-- A write with the right that changes no owner: nothing is posted or owed. -/
theorem arrive_refused {s : State} (hs : Serving s) (r : Requester) (off word : Offset) (lanes wl : Lanes)
    (data wd : Word32) (lock : Bool) (hreach : (s.reach off).offset = word)
    (heff : s.writeEffect (s.writeTxn r off lanes data lock) (s.reach off) = ⟨s, .write (s.addr word) wl wd, none⟩) :
    (s.arrive (s.writeTxn r off lanes data lock)).posts = s.posts ∧
    (s.arrive (s.writeTxn r off lanes data lock)).owed = s.owed ∧
    WriteDone s s (s.arrive (s.writeTxn r off lanes data lock)) (s.writeTxn r off lanes data lock) word wl wd := by
  refine ⟨?_, ?_, arrive_done hs r off word lanes wl data wd lock s hreach heff (Kept.refl s).bus_kept⟩
  · rw [arrive_serving hs _ off rfl, takeWindow_write _ _ _ rfl, heff, finishWrite_self]
    exact (complete_posts _ _ _ _ _ _).1
  · rw [arrive_serving hs _ off rfl, takeWindow_write _ _ _ rfl, heff, finishWrite_self]
    exact (complete_posts _ _ _ _ _ _).2

/-! The command words: what a write through a path is judged as. -/

theorem laneOf_zero (upper : BitVec 24) (code : BitVec 8) : laneOf (upper ++ code) 0 = code := by
  apply BitVec.eq_of_toNat_eq
  simp only [laneOf, toNat_extract, toNat_append_add]
  have := code.isLt
  omega

theorem group_of_upper (upper : BitVec 24) (code : BitVec 8) :
    (upper ++ code).extractLsb' 8 5 = upper.extractLsb' 0 5 := by
  apply BitVec.eq_of_toNat_eq
  simp only [toNat_extract, toNat_append_add]
  have := code.isLt
  omega

/-- A full-word LINE write by a requester with the right, at the word a path reaches. -/
theorem writeEffect_line {s : State} {r : Requester} (hr : actsForLink r = true) (off : Offset) (data : Word32)
    (lock : Bool) (n : SlotNo) (v : Option PosNo) :
    s.writeEffect (s.writeTxn r off fullLanes data lock) ⟨slotOffset n 1, .line n, v⟩ =
      s.lineEffect (s.writeTxn r off fullLanes data lock) ⟨slotOffset n 1, .line n, v⟩ n := by
  simp [State.writeEffect, mayWrite, State.writeTxn, requesterOf, hr, State.rightfulEffect]

/-- A full-word ACTION write by a requester with the right, at the word a path reaches. -/
theorem writeEffect_action {s : State} {r : Requester} (hr : actsForConsole r = true) (off : Offset) (data : Word32)
    (lock : Bool) (n : SlotNo) (v : Option PosNo) :
    s.writeEffect (s.writeTxn r off fullLanes data lock) ⟨slotOffset n 0, .action n, v⟩ =
      s.actionEffect (s.writeTxn r off fullLanes data lock) ⟨slotOffset n 0, .action n, v⟩ n := by
  simp [State.writeEffect, mayWrite, State.writeTxn, requesterOf, hr, State.rightfulEffect]

/-- A LINE write whose event is taken, through any path. -/
theorem line_taken {s : State} (hs : Serving s) {r : Requester} (hr : actsForLink r = true) {path : CallPath}
    {n : SlotNo} (hp : PathReaches s path n) (code : BitVec 8) (upper : BitVec 24) (lock : Bool) (q : State)
    (he : s.lineEvent n code (groupOfField (upper.extractLsb' 0 5)) = ⟨q, .taken⟩) :
    WriteDone s q (s.arrive (s.lineTxn r path code upper lock)) (s.lineTxn r path code upper lock) (slotOffset n 1)
      fullLanes (setLane3 (upper ++ code) Result.taken.code) := by
  have hreach := reach_path (1 : Fin 2) hp
  have hk : BusKept s q := by
    have := (kept_lineEvent s n code (groupOfField (upper.extractLsb' 0 5))).bus_kept
    rwa [he] at this
  refine arrive_done hs r _ _ _ _ _ _ lock q (by rw [show (1 : ℕ) = ((1 : Fin 2) : ℕ) from rfl, hreach]) ?_ hk
  rw [show pathOffset path 1 = pathOffset path ((1 : Fin 2) : ℕ) from rfl, hreach]
  refine (writeEffect_line hr _ _ _ n _).trans ?_
  simp only [State.lineEffect, State.writeTxn, laneOf_zero, group_of_upper, he, if_true, State.commandEffect,
    State.fullWrite, State.addr]

/-- A LINE write whose event is refused, through any path (R16). -/
theorem line_refused {s : State} (hs : Serving s) {r : Requester} (hr : actsForLink r = true) {path : CallPath}
    {n : SlotNo} (hp : PathReaches s path n) (data : Word32) (lock : Bool) (res : Result) (hres : res ≠ .taken)
    (he : s.lineEvent n (laneOf data 0) (groupOfField (data.extractLsb' 8 5)) = ⟨s, res⟩) :
    WriteDone s (s.raiseFault ⟨.lineRefused, some r, slotOffset n 1, data⟩)
      (s.arrive (s.writeTxn r (pathOffset path 1) fullLanes data lock))
      (s.writeTxn r (pathOffset path 1) fullLanes data lock) (slotOffset n 1) fullLanes (setLane3 data res.code) := by
  have hreach := reach_path (1 : Fin 2) hp
  have hk := (kept_raiseFault s ⟨.lineRefused, some r, slotOffset n 1, data⟩).bus_kept
  refine arrive_done hs r _ _ _ _ _ _ lock _ (by rw [show (1 : ℕ) = ((1 : Fin 2) : ℕ) from rfl, hreach]) ?_ hk
  rw [show pathOffset path 1 = pathOffset path ((1 : Fin 2) : ℕ) from rfl, hreach]
  refine (writeEffect_line hr _ _ _ n _).trans ?_
  simp only [State.lineEffect, State.writeTxn, requesterOf, requesterOfCode_busCode, he, if_neg hres,
    State.commandEffect, State.fullWrite, State.addr]

theorem laneOf_zero_actionWord (path : CallPath) (data : Word32) : laneOf (actionWord path data) 0 = laneOf data 0 := by
  cases path with
  | slot => rfl
  | view p =>
    apply BitVec.eq_of_toNat_eq
    simp only [actionWord, setLane1, laneOf, toNat_extract, toNat_append_add]
    have := (BitVec.ofNat 8 p.val).isLt
    omega

/-- An ACTION write through any path, by what its event leaves. -/
theorem action_done {s : State} (hs : Serving s) {r : Requester} (hr : actsForConsole r = true) {path : CallPath}
    {n : SlotNo} (hp : PathReaches s path n) (data : Word32) (lock : Bool) (q : State) (res : Result)
    (he : s.actionEvent n (laneOf data 0) (laneOf (actionWord path data) 1) = ⟨q, res⟩) :
    WriteDone s q (s.arrive (s.writeTxn r (pathOffset path 0) fullLanes data lock))
      (s.writeTxn r (pathOffset path 0) fullLanes data lock) (slotOffset n 0) fullLanes
      (setLane3 (actionWord path data) res.code) ∧
    (q = s → (s.arrive (s.writeTxn r (pathOffset path 0) fullLanes data lock)).posts = s.posts ∧
      (s.arrive (s.writeTxn r (pathOffset path 0) fullLanes data lock)).owed = s.owed) := by
  have hreach := reach_path (0 : Fin 2) hp
  have hk : BusKept s q := by
    have := (kept_actionEvent s n (laneOf data 0) (laneOf (actionWord path data) 1)).bus_kept
    rwa [he] at this
  have heff : s.writeEffect (s.writeTxn r (pathOffset path 0) fullLanes data lock) (s.reach (pathOffset path 0)) =
      ⟨q, .write (s.addr (slotOffset n 0)) fullLanes (setLane3 (actionWord path data) res.code), none⟩ := by
    rw [show pathOffset path 0 = pathOffset path ((0 : Fin 2) : ℕ) from rfl, hreach]
    refine (writeEffect_action hr _ _ _ n _).trans ?_
    have hd : State.actionEffect s (s.writeTxn r (pathOffset path ((0 : Fin 2) : ℕ)) fullLanes data lock)
        ⟨slotOffset n 0, .action n, pathVia path⟩ n =
      s.commandEffect ⟨slotOffset n 0, .action n, pathVia path⟩
        (s.actionEvent n (laneOf (actionWord path data) 0) (laneOf (actionWord path data) 1)) (actionWord path data) := by
      cases path <;> rfl
    rw [hd, laneOf_zero_actionWord, he]
    rfl
  have hword : (s.reach (pathOffset path 0)).offset = slotOffset n 0 := by
    rw [show (0 : ℕ) = ((0 : Fin 2) : ℕ) from rfl, hreach]
  refine ⟨arrive_done hs r _ _ _ _ _ _ lock q hword heff hk, ?_⟩
  rintro rfl
  exact ⟨(arrive_refused hs r _ _ _ _ _ _ lock hword heff).1, (arrive_refused hs r _ _ _ _ _ _ lock hword heff).2.1⟩

/-- A full-word CONTROL write by a requester with the right, by what its command leaves. -/
theorem control_done {s : State} (hs : Serving s) {r : Requester} (hr : actsForConsole r = true) (p : PosNo)
    (data : Word32) (lock : Bool) (q : State) (res : Result) (he : s.controlEvent p (laneOf data 0) = ⟨q, res⟩) :
    WriteDone s q (s.arrive (s.writeTxn r (blockOffset p 0) fullLanes data lock))
      (s.writeTxn r (blockOffset p 0) fullLanes data lock) (blockOffset p 0) fullLanes (setLane3 data res.code) ∧
    (q = s → (s.arrive (s.writeTxn r (blockOffset p 0) fullLanes data lock)).posts = s.posts ∧
      (s.arrive (s.writeTxn r (blockOffset p 0) fullLanes data lock)).owed = s.owed) := by
  have hreach : s.reach (blockOffset p 0) = ⟨blockOffset p 0, .control p, none⟩ := by
    have := reach_of_placeOf s (blockOffset p 0) (by simp)
    rwa [placeOf_control] at this
  have hk : BusKept s q := by
    have := (kept_controlEvent s p (laneOf data 0)).bus_kept
    rwa [he] at this
  have heff : s.writeEffect (s.writeTxn r (blockOffset p 0) fullLanes data lock) (s.reach (blockOffset p 0)) =
      ⟨q, .write (s.addr (blockOffset p 0)) fullLanes (setLane3 data res.code), none⟩ := by
    rw [hreach]
    simp only [State.writeEffect, mayWrite, State.writeTxn, requesterOf, requesterOfCode_busCode, hr, if_true,
      State.rightfulEffect, Place.isCommand,
      ne_eq, not_true_eq_false, decide_false, Bool.and_false, Bool.false_eq_true, if_false, State.controlEffect, he,
      State.commandEffect, State.fullWrite, State.addr]
  have hword : (s.reach (blockOffset p 0)).offset = blockOffset p 0 := by rw [hreach]
  refine ⟨arrive_done hs r _ _ _ _ _ _ lock q hword heff hk, ?_⟩
  rintro rfl
  exact ⟨(arrive_refused hs r _ _ _ _ _ _ lock hword heff).1, (arrive_refused hs r _ _ _ _ _ _ lock hword heff).2.1⟩

end Sys2Proof.Machine
end

