-- ==== Sys2Proof/Tests/Slice0.lean ====
section
/-! SUPPORT. Our own tests: ill-formed commands the check refuses, words and scores written out from the tables of the
manual, a few commands one step each, and for every statement with hypotheses a state that meets them. -/

namespace Sys2Proof.Tests

set_option Elab.async false

open Sys2Proof.Machine Sys2Proof.Safety

/-! States. -/

/-- In RUN and DAY, every route group of class 5, recall limit 1 and 10 s timers, four positions fitted, the window the
last one. -/
def running : State :=
  { State.reset with
    straps := { wbase := 63, posn := 3, refsel := 0 }, pins := { wbase := 63, posn := 3, refsel := 0 }
    seq := .run, stage := .running
    settings := { Settings.default with
      groups := Vector.replicate 32 { GroupSettings.default with cls := 5, hold := 10, transfer := 10, camp := 10 } } }

/-- `running` with slot 127 in disposition `d` at position `p`, its home 3. -/
def withSlot (d : Disp) (p : Option PosNo) : State :=
  running.setSlot 127 { Slot.empty with disp := d, position := p, home := some 3, group := 31 }

/-- `running` with slot 127 PRESENTED at position 3 and due at call tick `d`. -/
def dueAt (d : Tick) : State :=
  running.setSlot 127 { Slot.empty with
    disp := .presented, position := some 3, home := some 3, group := 31, returnKind := some .queued, deadline := some d }

/-- A position record in state `st`. -/
def posIn (st : PosState) : Position := { Position.empty with state := st }

/-! Commands that do not spell their row are refused by the check. -/

theorem test_wf_power_sram : (Instr.powerOnReset running.pins [(1, 1), (1, 2)]).wellFormed = false := by decide
theorem test_wf_power_outside : (Instr.powerOnReset running.pins [(4194304, 1)]).wellFormed = false := by decide
theorem test_wf_restart_right : (Instr.restart .link false running.pins).wellFormed = false := by decide
theorem test_wf_offer_right : (Instr.offer .console (.slot 0) 0 false).wellFormed = false := by decide
theorem test_wf_event_code : (Instr.unknownEventCode .link (.slot 0) 6 false).wellFormed = false := by decide
theorem test_wf_answer_right : (Instr.answer .link (.slot 0) 0 false).wellFormed = false := by decide
theorem test_wf_action_code : (Instr.unknownActionCode .console (.slot 0) 5 false).wellFormed = false := by decide
theorem test_wf_control_code : (Instr.unknownControlCommand .console 0 2 false).wellFormed = false := by decide
theorem test_wf_setting_word : (Instr.settingWrite .console 0x001 fullLanes 0 false).wellFormed = false := by decide
theorem test_wf_counter_word : (Instr.counterPreset .console 0x07F fullLanes 0 false).wellFormed = false := by decide
theorem test_wf_stray_right : (Instr.strayWrite .console 0x000 fullLanes 0 false).wellFormed = false := by decide
theorem test_wf_partial_lanes : (Instr.partialCommand .console 0x400 fullLanes 0 false).wellFormed = false := by decide
theorem test_wf_partial_word : (Instr.partialCommand .console 0x402 1 0 false).wellFormed = false := by decide
theorem test_wf_offer : (Instr.offer .link (.slot 0) 0 false).wellFormed = true := by decide

/-- The table gives no row any bits, so no word spells a command. -/
theorem test_decode_none (nbits w : Nat) : decodeTableWord nbits w = none := rfl

/-! Words of R200 and codes of R199. -/

theorem test_disposition_free : dispositionWord Slot.empty = 0x0000FFF0#32 := by decide
theorem test_status_reset : statusWord Position.empty none 0 = 0xFFFF0000#32 := by decide
theorem test_fault_none : faultHeadWord none 0 = 0x00FF0000#32 := by decide
theorem test_stack_empty : stackWord none = 0x000000FF#32 := by decide
theorem test_mode_status : modeStatusWord .lapsed .night true .restart .run = 0x0000331B#32 := by decide

/-- Slot 5 (group 3) TALKING at position 2, home 2, saved class 4, two recalls, not final. -/
theorem test_disposition_talking : dispositionWord { Slot.empty with
    disp := .talking, position := some 2, home := some 2, savedClass := some 4, group := 3, recalls := 2 } =
      0x00434223#32 := by decide

/-- R61: class 3, grain 10, step 2, 95 s waited and one recall score 96 + 18 + 24. -/
theorem test_score : urgency { GroupSettings.default with cls := 3, grain := 10, step := 2 } 95 1 false = 138 := by decide
/-- R61, stage 4. -/
theorem test_score_clamps : urgency { GroupSettings.default with cls := 7, grain := 1, step := 15 } 4095 7 false = 255 := by
  decide
/-- R105 across the wrap of the call tick count: armed at FFFFh for 1 s, due at 0009h. -/
theorem test_deadline_wraps : expiredAt 8 (armAt 0xFFFF 1) = false ∧ expiredAt 9 (armAt 0xFFFF 1) = true := by decide

/-- R200: class 5, grain 63, step 15 and limit 7 at their places, the other bits 0. -/
theorem test_group_word : groupFirstWord { GroupSettings.default with cls := 5, grain := 63, step := 15, limit := 7 } =
    0x070F3F05#32 := by decide

/-! Single steps. -/

/-- The word at window offset `off` after one command. -/
def wordAfter (s : State) (c : Instr) (off : Offset) : Option Word32 :=
  match exec c s with
  | .next t => some (t.mem.readWord (t.addr off))
  | _ => none

/-- A field after one command. -/
def after {α : Type} (s : State) (c : Instr) (f : State → α) : Option α :=
  match exec c s with
  | .next t => some (f t)
  | _ => none

theorem test_fill_last : wordAfter { State.reset with stage := .filling 127 } .fill 0x7FA = some 0x0000FFF0#32 := by decide

theorem test_offer : wordAfter running (.offer .link (.slot 127) 0x00001F false) 0x7F9 = some 0x01001F01#32 := by
  decide +kernel

/-- R18: group 0 has class 0 at the defaults. -/
theorem test_offer_barred : wordAfter { State.reset with seq := .run, stage := .running } (.offer .link (.slot 0) 0 false)
    0x401 = some 0x09000001#32 := by decide +kernel

/-- R35, R46: a call of class 5 gives threshold 6. -/
theorem test_answer : after ((withSlot .queued none).setPos 3 (posIn .ready)) (.answer .console (.slot 127) 3 false)
    (fun t => ((t.slot 127).disp, (t.slot 127).home, (t.pos 3).state, (t.pos 3).threshold)) =
      some (.talking, some 3, .engaged, some 6) := by decide +kernel

/-- R160: through view 2 the position field written is replaced by 2. -/
theorem test_answer_view : wordAfter
    ((withSlot .presented (some 2)).setPos 2 { posIn .presenting with presented := some 127 })
    (.answer .console (.view 2) 0xABCDFF false) 0x7F8 = some 0x01CD0201#32 := by decide +kernel

/-- R37, R38: HOLD makes the position READY at once, and the hold recall timer of 10 s is armed. -/
theorem test_hold : after ((withSlot .talking (some 3)).setPos 3 { posIn .engaged with talking := some 127 })
    (.hold .console (.slot 127) 3 false) (fun t => ((t.slot 127).disp, (t.slot 127).deadline, (t.pos 3).state)) =
      some (.held, some 100, .ready) := by decide +kernel

/-- R144: a console write to the DISPOSITION word puts the part's value there. -/
theorem test_stray_posted : wordAfter running (.strayWrite .console 0x402 fullLanes 0xFFFFFFFF false) 0x402 =
    some 0x0000FFF0#32 := by decide +kernel

/-- R137: acknowledging RECALL of QUEUE_ENTRY and RECALL leaves QUEUE_ENTRY. -/
theorem test_acknowledge : wordAfter { running with latched := 0x03 } (.acknowledgement .maint 1 0x02 false) 0x011 =
    some 0x00000001#32 := by decide +kernel

/-- R118: with no position ENGAGED the request enters NIGHT at once. -/
theorem test_night : after running (.nightRequest .console 0 0 false) (fun t => (t.actual, t.latched, t.settings.mode)) =
    some (.night, causeMode, .night) := by decide +kernel

/-- R139, R189: the write of 52h to RESTART is made, and the part is in SWEEP with cause RESTART. -/
theorem test_restart : after running (.restart .console false running.pins)
    (fun t => (t.seq, t.resetCause, t.mem.readWord (t.addr 0x009))) = some (.sweep, .restart, 0x00000052#32) := by
  decide +kernel

/-- R140, R141: lane 0 of PRESENT written with 3 is clamped to 5 s, the other lanes being 0 as the shadow has them. -/
theorem test_present_clamped : wordAfter running (.settingWrite .console 0x003 1 0xFFFFFF03 false) 0x003 =
    some 0x00000005#32 := by decide +kernel

/-- R72: lanes 2 and 3 preset the answered count alone. -/
theorem test_preset : after running (.counterPreset .maint 0x0BE 0xC 0x12345678 false)
    (fun t => ((t.counts 31).offered, (t.counts 31).answered)) = some (0, 0x1234) := by decide +kernel

/-- R150, R154: a read of CALL CLOCK drives the counters. -/
theorem test_read_clock : after { running with callTicks := 0x0102, cadence := 39 }
    (.readWithoutLock .other (running.addr 0x013) fullLanes) (fun t => t.reply) = some (some 0x00270102#32) := by
  decide +kernel

/-- R100: the tick that takes the divider from 9 to 0 is a second tick. -/
theorem test_second : after { running with divider := 9, callTicks := 0xFFFF, cadence := 39 } .callTick
    (fun t => (t.callTicks, t.divider, t.cadence, t.secondAtQueue, t.secondAtSlots)) = some (0, 0, 0, true, true) := by
  decide +kernel

/-- R193: a HELD word without a home is discarded and the slot is FREE. -/
theorem test_discard : after { State.reset with
      stage := .adopting 0, seq := .sweep, mem := Memory.writeWord [] 0x402 fullLanes 0x0000FFF5 } .adoption
    (fun t => (t.slot 0, t.fault, t.mem.readWord 0x402)) =
      some (Slot.empty, some ⟨.sweepDiscard, none, 0x402, 0x0000FFF5⟩, 0x0000FFF0) := by decide +kernel

/-- R90, step 3: the second miss closes the position at the default limit of 2. -/
theorem test_autoclose : after
    { (dueAt 100).setPos 3 { posIn .presenting with presented := some 127, misses := 1 } with callTicks := 100 }
    (.presentationExpiry 127)
    (fun t => ((t.pos 3).state, (t.pos 3).misses, t.latched)) = some (.closed, 2, causeMiss ||| causeAutoclose) := by
  decide +kernel

/-- R106: a presentation left untaken at the tick that found it is taken before the next tick. -/
theorem test_due_before_tick : after
    { (dueAt 100).setPos 3 { posIn .presenting with presented := some 127 } with callTicks := 100 } .callTick
    (fun t => (t.callTicks, (t.pos 3).state, (t.pos 3).misses, t.latched)) = some (101, .ready, 1, causeMiss) := by
  decide +kernel

/-- R44, R47: a pop to the same threshold, after the offered call's class has fallen below it, withdraws the offer. -/
theorem test_pop_retests : after
    { (((dueAt 100).setSlot 0 { Slot.empty with disp := .talking, position := some 3, home := some 3 }).setPos 3
        { posIn .engaged with
          talking := some 0, presented := some 127, threshold := some 6, stack := [⟨1, 6⟩] }) with actual := .lapsed }
    (.release .console (.slot 0) 3 false) (fun t => ((t.pos 3).talking, (t.pos 3).presented, (t.slot 127).disp)) =
      some (some 1, none, .queued) := by decide +kernel

/-- R125: a HEARTBEAT in LAPSED with DAY requested returns to DAY; code 4 is 16 s. -/
theorem test_heartbeat_lapsed : after { running with
      actual := .lapsed, settings := { running.settings with supervision := 4 } } (.heartbeat .console 0 false)
    (fun t => (t.actual, t.supervision, t.latched)) = some (.day, some 160, causeMode) := by decide +kernel

/-- R186: a stray write of 0 to a plain word without the right fills the record, and all three FAULT words are posted
although 016h reads 0 before and after. -/
theorem test_fault_posts : after running (.strayWrite .other 0x400 fullLanes 0 false) (fun t => t.posts.map Post.offset) =
    some [0x011, 0x014, 0x015, 0x016] := by decide +kernel

/-- R173 to R176: at phase 5 a QUEUED call's FLASH is dark, a SPLIT call's WINK is lit. -/
theorem test_lamps : ({ withSlot .queued none with cadence := 25 } : State).overlay (.lampCadence 31) =
      some 0x02000000#32 ∧ ({ withSlot .queued none with cadence := 25 } : State).overlay (.lampLit 3) = some 0 ∧
    ({ withSlot .split (some 3) with cadence := 25 } : State).overlay (.lampLit 3) = some 0x80000000#32 := by decide +kernel

/-- R177 to R179: in LAPSED the ALARM sounds on even phases; in DAY a PRESENTED call rings for phases 0 to 9. -/
theorem test_bell : ({ running with actual := .lapsed, cadence := 38 } : State).bellOutput = true ∧
    ({ running with actual := .lapsed, cadence := 39 } : State).bellOutput = false ∧
    ({ dueAt 0 with cadence := 9 } : State).bellOutput = true ∧
    ({ dueAt 0 with cadence := 10 } : State).bellOutput = false := by decide +kernel

/-- R201: requester code 3 is OTHER, which has no right to a DESTINATION word. -/
theorem test_requester_code : mayWrite (.destination 0) (requesterOfCode 3) = false ∧
    mayWrite (.destination 0) (requesterOfCode 2) = true := by decide

/-! Witnesses: for each statement with hypotheses, states and operands that meet them, at the ends of their ranges. -/

/-- `s` with one command waiting. -/
def withCommand (s : State) (c : Instr) : State := { s with pending := [c] }

theorem reset_slot (n : SlotNo) : State.reset.slot n = Slot.empty := by simp [State.slot, State.reset]
theorem reset_pos (p : PosNo) : State.reset.pos p = Position.empty := by simp [State.pos, State.reset]
theorem running_slot (n : SlotNo) : running.slot n = Slot.empty := reset_slot n
theorem running_pos (p : PosNo) : running.pos p = Position.empty := reset_pos p
theorem serving_running : Serving running := ⟨rfl, rfl, rfl, rfl⟩

/-- With no call and nothing armed, `running` has nothing due. -/
theorem nothing_found (s : State) (hs : s.slots = State.reset.slots) (hp : s.positions = State.reset.positions)
    (h : s.supervision = none) (hq : s.secondAtQueue = false) (ht : s.secondAtSlots = false) : NothingFound s := by
  have hslot : ∀ n, s.slot n = Slot.empty := fun n => by unfold State.slot; rw [hs]; exact reset_slot n
  have hpos : ∀ p, s.pos p = Position.empty := fun p => by unfold State.pos; rw [hp]; exact reset_pos p
  refine ⟨fun n => ?_, fun p => ?_, ?_, hq, ht⟩ <;>
    simp [hslot, hpos, h, Slot.empty, Position.empty, State.expired, expiredAt]

theorem step_tick : step (withCommand running .callTick) = .next running.tick :=
  congrArg Host.Outcome.next (callTick_of_nothingFound (nothing_found _ rfl rfl rfl rfl rfl))

theorem witness_idle : State.reset.pending = [] ∧
    ({ State.reset with prescaler := 204798 } : State).prescaler + 1 < 204800 ∧
    204800 ≤ ({ State.reset with prescaler := 204799 } : State).prescaler + 1 := by decide

theorem witness_step_wf : (withCommand State.reset .openingWrite).mem.wf = true ∧
    step (withCommand State.reset .openingWrite) = .next State.reset.openingStep := ⟨rfl, rfl⟩

theorem witness_step_settings : SettingsInRange (withCommand running .callTick).settings ∧
    step (withCommand running .callTick) = .next running.tick := by
  refine ⟨⟨by decide, by decide, by decide, by decide, by decide, fun g => ?_⟩, step_tick⟩
  simp [withCommand, running, GroupSettings.default]

theorem witness_step_fault :
    FaultRecordAgrees (withCommand { running with fault := some ⟨.strayWrite, some .link, 0, 0⟩, latched := 0xFF } .post) ∧
    FaultRecordAgrees (withCommand running .post) ∧
    step (withCommand running .post) = .next running := by
  refine ⟨⟨by decide, fun h => nomatch h⟩, ⟨by decide, fun _ => rfl⟩, rfl⟩

/-- Sixteen entries, the most the queue holds. -/
def fullQueue : List Post :=
  [0x402, 0x010, 0x011, 0x014, 0x015, 0x016, 0x0C1, 0x0D1, 0x0E1, 0x0F1, 0x40A, 0x412, 0x41A, 0x422, 0x42A, 0x7F2].map
    fun off => ⟨off, 0⟩

theorem witness_step_posting : PostingBounded (withCommand { running with posts := fullQueue } .callTick) ∧
    ∃ t, step (withCommand { running with posts := fullQueue } .callTick) = .next t :=
  ⟨⟨by decide, by decide, by decide⟩, _, rfl⟩

theorem reset_list_follows (s : State) (hs : s.slots = State.reset.slots) (hl : s.answerList = []) : ListFollows s := by
  refine ⟨by simp [hl], fun n => ?_⟩
  have : s.slot n = Slot.empty := by unfold State.slot; rw [hs]; exact reset_slot n
  simp [hl, this, Slot.empty, Disp.isListed]

theorem witness_step_ready : ((withCommand running .callTick).seq = .run ↔ (withCommand running .callTick).stage = .running) ∧
    ReadyListExact (withCommand running .callTick) ∧ NoneWaitsAtReady (withCommand running .callTick) ∧
    step (withCommand running .callTick) = .next running.tick := by
  refine ⟨by decide, ⟨by decide, fun p => ?_⟩, fun _ _ => rfl, step_tick⟩
  have : (withCommand running .callTick).pos p = Position.empty := running_pos p
  rw [this]; simp [withCommand, running, State.reset, Position.empty]

/-- A READY position and no call: the last hypothesis with its premise met. -/
theorem witness_ready_position : NoneWaitsAtReady { running.setPos 3 (posIn .ready) with readyList := [3] } ∧
    ({ running.setPos 3 (posIn .ready) with readyList := [3] } : State).presentsCalls = true ∧
    (({ running.setPos 3 (posIn .ready) with readyList := [3] } : State).pos 3).state = .ready := by
  refine ⟨fun _ _ => rfl, by decide, by decide⟩

theorem fits_empty (s : State) (hs : s.slots = State.reset.slots) (hp : s.positions = State.reset.positions) :
    RecordsFit s := by
  constructor
  · intro n
    have : s.slot n = Slot.empty := by unfold State.slot; rw [hs]; exact reset_slot n
    rw [this]; simp [SlotFieldsFit, Slot.empty]
  · intro p
    have : s.pos p = Position.empty := by unfold State.pos; rw [hp]; exact reset_pos p
    rw [this]; simp [PositionFieldsFit, Position.empty]

/-- The first five slots of `busy`: talking, set aside, offered, presented and held. -/
def busySlots : List Slot :=
  [{ Slot.empty with disp := .talking, position := some 3, home := some 3, savedClass := some 5 },
   { Slot.empty with disp := .split, position := some 3, home := some 3, savedClass := some 1 },
   { Slot.empty with
     disp := .presented, position := some 3, returnKind := some .queued, breakIn := true, deadline := some 190 },
   { Slot.empty with
     disp := .presented, position := some 2, home := some 2, recalls := 1, returnKind := some .recall
     deadline := some 40 },
   { Slot.empty with disp := .held, position := some 0, home := some 0, deadline := some 640 }]

/-- A machine with calls at call tick 40: position 3 ENGAGED with a stacked call and a break-in offer, position 2
PRESENTING a call whose time is up, position 1 in WRAPUP, position 0 READY, a held call, and supervision just expired. -/
def busy : State :=
  { running with
    callTicks := 40, supervision := some 40
    slots := ⟨(busySlots ++ List.replicate 123 Slot.empty).toArray, by simp [busySlots]⟩
    answerList := [⟨2, 160⟩, ⟨3, 184⟩]
    positions := ⟨#[posIn .ready, { posIn .wrapup with wrapDeadline := some 70 },
      { posIn .presenting with presented := some 3, misses := 1 },
      { posIn .engaged with talking := some 0, presented := some 2, stack := [⟨1, 2⟩], threshold := some 6 }], rfl⟩
    readyList := [0] }

/-- Slots 5 and above are empty. -/
theorem busy_rest (n : SlotNo) (h : 5 ≤ n.val) : busy.slot n = Slot.empty := by
  have : (busySlots ++ List.replicate 123 Slot.empty)[n.val]'(by simp [busySlots]) = Slot.empty := by
    rw [List.getElem_append_right (by simpa [busySlots] using h), List.getElem_replicate]
  exact this

theorem forall_busy {P : SlotNo → Slot → Prop} (h0 : P 0 (busy.slot 0)) (h1 : P 1 (busy.slot 1)) (h2 : P 2 (busy.slot 2))
    (h3 : P 3 (busy.slot 3)) (h4 : P 4 (busy.slot 4)) (h : ∀ n : SlotNo, 5 ≤ n.val → P n Slot.empty) (n : SlotNo) :
    P n (busy.slot n) := by
  by_cases hn : 5 ≤ n.val
  · rw [busy_rest n hn]; exact h n hn
  · obtain ⟨k, hk⟩ := n
    have : k < 5 := by simpa using hn
    interval_cases k
    exacts [h0, h1, h2, h3, h4]

theorem notBehind_iff (now : Tick) (o : Option Tick) :
    NotBehind now o ↔ (o.all fun d => decide ((d - now).toNat ≤ 2550)) = true := by
  cases o <;> simp [NotBehind]

theorem busy_calls : CallsAgree busy := by
  refine ⟨forall_busy (P := fun n sl => ∀ p : PosNo, (sl.disp = .talking ∧ sl.position = some p) ↔
      ((busy.pos p).state = .engaged ∧ (busy.pos p).talking = some n)) ?_ ?_ ?_ ?_ ?_ ?_,
    forall_busy (P := fun n sl => ∀ p : PosNo, (sl.disp = .presented ∧ sl.position = some p) ↔
      (busy.pos p).presented = some n) ?_ ?_ ?_ ?_ ?_ ?_,
    forall_busy (P := fun n sl => ∀ p : PosNo, (sl.disp = .split ∧ sl.position = some p) ↔
      n ∈ (busy.pos p).stack.map StackEntry.slot) ?_ ?_ ?_ ?_ ?_ ?_, by decide,
    forall_busy (P := fun _ sl => (sl.disp = .talking ∨ sl.disp = .presented ∨ sl.disp = .split) → sl.position.isSome)
      (by decide) (by decide) (by decide) (by decide) (by decide) (by decide)⟩
  all_goals decide

theorem busy_agrees : CallStateAgrees busy := by
  refine ⟨⟨?_, ?_⟩, ⟨by decide, by decide⟩, ⟨by decide, ?_⟩, ?_, busy_calls,
    ⟨by decide, fun h => absurd rfl h, trivial⟩, ?_, ?_, by unfold UnfittedAtReset; decide, ?_, ?_, ?_, fun _ => rfl,
    fun h => absurd rfl h⟩
  · apply forall_busy (P := fun _ sl => SlotFieldsFit sl) <;> unfold SlotFieldsFit <;> decide
  · unfold PositionFieldsFit; decide
  · apply forall_busy (P := fun n sl => n ∈ busy.answerList.map Listed.slot ↔ sl.disp.isListed = true) <;> decide
  · unfold PositionsStaffed; decide
  · apply forall_busy (P := fun _ sl => HomeFits sl) <;> unfold HomeFits <;> decide
  · have talks : ∀ p : PosNo, (busy.pos p).talking = none ∨ (p = 3 ∧ (busy.pos p).talking = some 0) := by decide
    have stacked : ∀ p : PosNo, ∀ e ∈ (busy.pos p).stack, p = 3 ∧ e = ⟨1, 2⟩ := by decide
    refine fun p => ⟨fun n _ hn => ?_, fun e he => ?_⟩
    · rcases talks p with h | ⟨rfl, h⟩
      · rw [h] at hn; exact nomatch hn
      · obtain rfl : 0 = n := by rw [h] at hn; exact Option.some.inj hn
        exact ⟨5, by decide, by decide⟩
    · obtain ⟨rfl, rfl⟩ := stacked p e he
      exact ⟨1, by decide, by decide⟩
  · simp only [notBehind_iff]
    apply forall_busy (P := fun _ sl => (sl.deadline.all fun d => decide ((d - busy.callTicks).toNat ≤ 2550)) = true) <;>
      decide
  · simp only [notBehind_iff]; decide
  · rw [notBehind_iff]; decide

theorem agrees_empty (s : State) (hs : s.slots = State.reset.slots) (hp : s.positions = State.reset.positions)
    (hl : s.answerList = []) (hr : s.readyList = []) (hst : StartUpAgrees s) (hsup : s.supervision = none)
    (hrun : s.seq = .run) : CallStateAgrees s := by
  have hslot : ∀ n, s.slot n = Slot.empty := fun n => by unfold State.slot; rw [hs]; exact reset_slot n
  have hpos : ∀ p, s.pos p = Position.empty := fun p => by unfold State.pos; rw [hp]; exact reset_pos p
  refine ⟨fits_empty s hs hp, ⟨by simp [hr], fun p => ?_⟩, reset_list_follows s hs hl, fun p => ?_, ?_, hst, fun n => ?_,
    fun p => ⟨fun n h => ?_, fun e he => ?_⟩, fun p _ => hpos p, fun n d h => ?_, fun p d h => ?_, fun d h => ?_, fun h => ?_,
    fun h => absurd hrun h⟩
  · simp [hr, hpos, Position.empty]
  · simp [hpos, Position.empty]
  · refine ⟨fun n p => ?_, fun n p => ?_, fun n p => ?_, fun p => ?_, fun n => ?_⟩ <;>
      simp [hslot, hpos, Position.empty, Slot.empty]
  · simp [HomeFits, hslot, Slot.empty]
  · simp [hpos, Position.empty] at h
  · simp [hpos, Position.empty] at he
  · simp [hslot, Slot.empty] at h
  · simp [hpos, Position.empty] at h
  · simp [hsup] at h
  · simp [hsup] at h

theorem witness_step_records : RecordsFit (withCommand running .callTick) ∧
    step (withCommand running .callTick) = .next running.tick := ⟨fits_empty _ rfl rfl, step_tick⟩

theorem running_started (c : Instr) : StartUpAgrees (withCommand running c) :=
  ⟨⟨fun _ => rfl, fun _ => rfl⟩, fun h => absurd rfl h, trivial⟩

theorem witness_step_calls : CallStateAgrees (withCommand running .callTick) ∧
    step (withCommand running .callTick) = .next running.tick :=
  ⟨agrees_empty _ rfl rfl rfl rfl (running_started _) rfl rfl, step_tick⟩

/-- The same with calls in every unit. -/
theorem witness_step_busy : CallStateAgrees (withCommand busy .callTick) ∧
    ∃ t, step (withCommand busy .callTick) = .next t := ⟨busy_agrees, _, rfl⟩

/-- In RUN with an empty call store and an owed issue for every posted word. -/
def allOwed : State := { running with owed := postedOffsets.map fun off => ⟨off, running.postedValue off⟩ }

theorem filter_posted (f : Offset → Word32) {l : List Offset} {off : Offset} (hn : l.Nodup) (h : off ∈ l) :
    (l.map fun o => (⟨o, f o⟩ : Post)).filter (fun e => decide (e.offset = off)) = [⟨off, f off⟩] := by
  induction l with
  | nil => simp at h
  | cons a l ih =>
    obtain ⟨h1, h2⟩ := List.nodup_cons.1 hn
    by_cases ha : a = off
    · subst ha
      have : (l.map fun o => (⟨o, f o⟩ : Post)).filter (fun e => decide (e.offset = a)) = [] := by
        rw [List.filter_eq_nil_iff]
        intro e he
        obtain ⟨o, ho, rfl⟩ := List.mem_map.1 he
        simpa using fun (x : o = a) => h1 (x ▸ ho)
      simp [this]
    · have hm : off ∈ l := by
        rcases List.mem_cons.1 h with h | h
        · exact absurd h.symm ha
        · exact h
      simp [ha, ih h2 hm]

theorem witness_step_memory : let s := withCommand allOwed .callTick
    s.mem.wf = true ∧ PostingBounded s ∧ StartUpAgrees s ∧ MemoryFollows s ∧ step s = .next allOwed.tick ∧
      ∀ e ∈ allOwed.tick.owed.drop s.owed.length, ¬heldWrites s e.offset := by
  refine ⟨rfl, ⟨by decide, by decide, fun e he => nomatch he⟩, ⟨by decide, fun h => absurd rfl h, trivial⟩, ?_,
    congrArg Host.Outcome.next (callTick_of_nothingFound (nothing_found _ rfl rfl rfl rfl rfl)), ?_⟩
  · intro off hoff
    have : settledWord (withCommand allOwed .callTick) off = owedWord (withCommand allOwed .callTick) off := rfl
    rw [this]
    unfold owedWord
    have : (withCommand allOwed .callTick).owed.filter (fun e => decide (e.offset = off)) =
        [⟨off, running.postedValue off⟩] := filter_posted _ postedOffsets_nodup hoff
    rw [this]
    exact (postedValue_bus running none [] allOwed.owed [] none [] none off).symm
  · have : allOwed.tick.owed.drop (withCommand allOwed .callTick).owed.length = [] := List.drop_length
    rw [this]; simp

theorem witness_straps : ∃ t, exec (.resetN running.straps) State.reset = .next t ∧ t.straps ≠ State.reset.straps :=
  ⟨_, rfl, by decide⟩

/-- The highest window address under `running`. -/
def lastTxn : Txn := running.writeTxn .other 0x7FF fullLanes 0 true

/-- One transaction inside the window newly sampled and one outside it, and the machines they wait at: nothing waits; one
waits for owed issues and two behind it; one outside waits in front of one inside. -/
theorem witness_resets : let inside := lastTxn
    let outside := readTxn .link 0 fullLanes true
    let waiting (s : State) : List Txn := (s.held.map Held.txn).toList ++ s.bus
    windowOffset running.straps.wbase inside.addr = some 0x7FF ∧ windowOffset running.straps.wbase outside.addr = none ∧
    waiting State.reset = [] ∧
    waiting { running with held := some ⟨inside, .nothing, 1⟩, bus := [outside, inside] } = inside :: [outside, inside] ∧
    waiting { State.reset with bus := [outside, inside] } = outside :: [inside] ∧
    outside.write = false ∧ inside.write = true ∧ running.mem.wf = true ∧ (Memory.ofCells [(5, 1)]).wf = true := by
  decide

theorem witness_restart : Serving running ∧ Serving allOwed ∧ actsForConsole .maint = true ∧ running.owed = [] ∧
    allOwed.owed ≠ [] := by
  refine ⟨serving_running, ⟨rfl, rfl, rfl, rfl⟩, rfl, rfl, ?_⟩
  simp [allOwed, postedOffsets]

theorem witness_waiting : busTxn State.reset (.lockedRead .other 0 fullLanes) = some (readTxn .other 0 fullLanes true) ∧
    windowOffset State.reset.straps.wbase 0 = some 0 ∧ State.reset.seq ≠ .run ∧ State.reset.held = none ∧
    State.reset.bus = [] ∧ (({ running with held := some ⟨lastTxn, .nothing, 1⟩ } : State).held.isSome = true) ∧
    ({ State.reset with bus := [lastTxn] } : State).bus ≠ [] := by decide

theorem witness_startup : State.reset.stage = .opening ∧ State.reset.mem.wf = true ∧
    ({ State.reset with stage := .filling 0 } : State).stage = .filling 0 ∧
    ({ State.reset with stage := .filling 127 } : State).stage = .filling 127 ∧
    ({ State.reset with stage := .closing } : State).stage = .closing ∧
    ({ State.reset with seq := .sweep, stage := .settings 0 } : State).stage = .settings 0 ∧
    ({ State.reset with seq := .sweep, stage := .settings 71 } : State).stage = .settings 71 ∧
    ({ State.reset with seq := .sweep, stage := .adopting 127 } : State).stage = .adopting 127 := by decide

/-- Words of each clause of the adoption table, at the ends of the fields' ranges: ill-formed in each field, then
well-formed with home 15 and with a home. -/
theorem witness_adoption :
    ((0x00000040#32).extractLsb' 4 4).toNat = 4 ∧ ((0x000000E0#32).extractLsb' 4 4).toNat = 14 ∧
    ((0x00000400#32).extractLsb' 8 4).toNat = 4 ∧ ((0x00008000#32).extractLsb' 12 4).toNat = 8 ∧
    ((0x0C000000#32).extractLsb' 26 2).toNat = 3 ∧ ((0x00000009#32).extractLsb' 0 4).toNat = 9 ∧
    ((0x0000FFF3#32).extractLsb' 8 4).toNat = 15 ∧ ((0x0000FFF3#32).extractLsb' 0 4).toNat = 3 ∧
    ((0x08007332#32).extractLsb' 26 2).toNat = 2 ∧ ((0x08007332#32).extractLsb' 8 4).toNat = 3 ∧
    ((0x08007332#32).extractLsb' 4 4).toNat = 3 ∧ ((0x08007332#32).extractLsb' 12 4).toNat = 7 ∧
    ((0x000000F8#32).extractLsb' 8 4).toNat = 0 ∧ ((0x000000F8#32).extractLsb' 0 4).toNat = 8 := by decide

/-- The last state of start-up, with nothing adopted. -/
def entering : State := { State.reset with stage := .entering }

theorem witness_entry : entering.stage = .entering ∧ entering.bus = [] ∧ entering.held = none ∧ entering.seq ≠ .run ∧
    StartUpAgrees entering ∧ busTxn entering (.lockedRead .other 0 fullLanes) = some (readTxn .other 0 fullLanes true) ∧
    busPins entering (.lockedRead .other 0 fullLanes) = entering.pins ∧
    ∃ u, exec .entryToRun entering = .next u := by
  refine ⟨rfl, rfl, rfl, by decide, ⟨by decide, fun _ => ⟨rfl, reset_pos, rfl, rfl, rfl, rfl⟩, trivial⟩, rfl, rfl, _, rfl⟩

/-! Line events. -/

theorem witness_offer : Serving running ∧ actsForLink .link = true ∧ PathReaches running (.slot 127) 127 ∧
    (running.slot 127).disp = .free ∧ (running.group (groupOfField ((0x1F#24).extractLsb' 0 5))).cls ≠ 0 :=
  ⟨serving_running, rfl, rfl, by decide, by decide⟩

/-- A slot in each disposition, reached through its own record. -/
theorem witness_line (d : Disp) (p : Option PosNo) : Serving (withSlot d p) ∧ actsForLink .maint = true ∧
    PathReaches (withSlot d p) (.slot 127) 127 ∧ ((withSlot d p).slot 127).disp = d ∧
    ((withSlot d p).slot 127).position = p := by
  refine ⟨⟨rfl, rfl, rfl, rfl⟩, rfl, rfl, ?_, ?_⟩ <;> simp [withSlot]

/-- The same through the view of an ENGAGED position. -/
theorem witness_view : PathReaches ((withSlot .talking (some 3)).setPos 3 { posIn .engaged with talking := some 127 })
    (.view 3) 127 := by
  show State.currentSlot _ _ = _; decide

theorem witness_line_codes : (State.reset.group 0).cls = 0 ∧ (laneOf 0x00000000#32 0).toNat = 0 ∧
    6 < (laneOf 0x00000007#32 0).toNat := by decide

/-- A PRESENTED call at a PRESENTING and at an ENGAGED position. -/
theorem witness_abandon :
    (((dueAt 0).setPos 3 { posIn .presenting with presented := some 127 }).pos 3).state = .presenting ∧
    (((dueAt 0).setPos 3 { posIn .engaged with presented := some 127 }).pos 3).state = .engaged ∧
    ((dueAt 0).slot 127).disp = .presented ∧ ((dueAt 0).slot 127).position = some 3 := by decide

/-! Actions. -/

/-- An action on slot 127 through `path` names position 3. -/
theorem names_three (s : State) (h : s.straps = running.straps) (code : BitVec 8) :
    Names s (.slot 127) ((3#24) ++ code) 3 := by
  refine ⟨?_, by simp [State.isFitted, State.fitted, h, running]⟩
  show (laneOf (3#24 ++ code) 1).toNat = 3
  rw [toNat_laneOf, toNat_append_add]
  have := code.isLt
  simp; omega

/-- Each disposition ANSWER applies to, at a position in each state it answers from. -/
theorem witness_answer (d : Disp) (st : PosState) : let s := (withSlot d none).setPos 3 (posIn st)
    Serving s ∧ actsForConsole .console = true ∧ PathReaches s (.slot 127) 127 ∧ Names s (.slot 127) (3#24 ++ 1#8) 3 ∧
      (s.slot 127).disp = d ∧ (s.pos 3).state = st := by
  refine ⟨⟨rfl, rfl, rfl, rfl⟩, rfl, rfl, names_three _ rfl _, ?_, ?_⟩ <;> simp [withSlot, posIn]

/-- An ENGAGED position 3 talking to slot 126 at threshold 6, with `k` calls on its stack. -/
def engagedWith (k : Nat) : Position :=
  { posIn .engaged with talking := some 126, threshold := some 6, stack := List.replicate k ⟨125, 1⟩ }

theorem witness_push : let s := (withSlot .held (some 3)).setPos 3 (engagedWith 3)
    Serving s ∧ PathReaches s (.slot 127) 127 ∧ Names s (.slot 127) (3#24 ++ 1#8) 3 ∧ (s.slot 127).disp = .held ∧
      (s.pos 3).state = .engaged ∧ (s.pos 3).talking = some 126 ∧ (s.pos 3).threshold = some 6 ∧
      (s.pos 3).stack.length < 4 := by
  refine ⟨⟨rfl, rfl, rfl, rfl⟩, rfl, names_three _ rfl _, ?_⟩
  decide

theorem witness_clear :
    (((withSlot .queued none).setPos 3 { posIn .presenting with presented := some 126 }).pos 3).presented = some 126 ∧
    (((withSlot .queued none).setPos 3 { posIn .presenting with presented := some 126 }).pos 3).state = .presenting ∧
    ((withSlot .queued none).pos 3).state ≠ .presenting := by decide

/-- HOLD, SWAP, EXTEND and RELEASE of the call talking at position 3, alone and with one call on its stack. -/
theorem witness_talking (k : Nat) (code : BitVec 8) :
    let s := (withSlot .talking (some 3)).setPos 3 { engagedWith k with talking := some 127 }
    Serving s ∧ PathReaches s (.slot 127) 127 ∧ Names s (.slot 127) (3#24 ++ code) 3 ∧ (s.slot 127).disp = .talking ∧
      (s.slot 127).position = some 3 ∧ (s.pos 3).stack = List.replicate k ⟨125, 1⟩ ∧ (s.pos 3).threshold = some 6 := by
  refine ⟨⟨rfl, rfl, rfl, rfl⟩, rfl, names_three _ rfl _, ?_, ?_, ?_, ?_⟩ <;> simp [withSlot, engagedWith, posIn]

/-- The cases of the wrap-up path: a call on the stack; none and an offer; none and no offer, with and without the
close-pending mark and a guard. -/
theorem witness_leave : (engagedWith 1).stack = [⟨125, 1⟩] ∧ (engagedWith 0).stack = [] ∧
    ({ engagedWith 0 with presented := some 124 } : Position).presented = some 124 ∧ (engagedWith 0).presented = none ∧
    ({ engagedWith 0 with closePending := true } : Position).closePending = true ∧ (engagedWith 0).closePending = false ∧
    running.settings.wrapGuard ≠ 0 ∧
    ({ running with settings := { running.settings with wrapGuard := 0 } } : State).settings.wrapGuard = 0 ∧
    (engagedWith 1).state = .engaged ∧ (engagedWith 1).talking = some 126 ∧ (125 : SlotNo) ≠ 126 := by decide

/-- Refused actions: no position of number 4 or more, a CLOSED position, a full stack, and undefined codes. -/
theorem witness_refused : running.fitted = 4 ∧ 4 ≤ (laneOf (0x000004#24 ++ 1#8) 1).toNat ∧
    ({ running with straps := State.reset.straps } : State).fitted = 1 ∧ (engagedWith 4).stack.length = 4 ∧
    (posIn .closed).state = .closed ∧ (laneOf 0x00000000#32 0).toNat = 0 ∧ 5 < (laneOf 0x00000006#32 0).toNat ∧
    running.currentSlot 3 = none := by decide

theorem witness_action_codes (r : Requester) (path : CallPath) (upper : BitVec 24) (lock : Bool) :
    IsAction r path upper lock (.answer r path upper lock) 1 ∧ IsAction r path upper lock (.release r path upper lock) 5 :=
  ⟨.inl ⟨rfl, rfl⟩, .inr (.inr (.inr (.inr ⟨rfl, rfl⟩)))⟩

/-! Positions and the arbiter. -/

theorem witness_control : running.isFitted 3 = true ∧ running.actual ≠ .night ∧ running.nightPending = false ∧
    ({ running with nightPending := true } : State).nightPending = true ∧
    ({ running with straps := State.reset.straps } : State).fitted ≤ (1 : PosNo).val ∧
    (laneOf 0x00000000#32 0).toNat = 0 ∧ 2 < (laneOf 0x00000003#32 0).toNat := by decide

/-- Two calls of one score, the first QUEUED and the second RECALL, with positions 0 and 3 READY. -/
def twoWait : State :=
  { ((withSlot .recall (some 3)).setSlot 0 { Slot.empty with disp := .queued }).setPos 3 (posIn .ready) with
    answerList := [⟨0, 200⟩, ⟨127, 200⟩], readyList := [0, 3] }

theorem witness_present : twoWait.bestCandidate = some ⟨0, 200⟩ ∧ twoWait.readyList = 0 :: [3] ∧
    ({ twoWait with actual := .night } : State).bestCandidate = none ∧ running.readyList = [] := by decide

/-- No position READY, and position 3 the lowest to qualify, at threshold 5. -/
def breakIn : State :=
  { (withSlot .queued none).setPos 3 { posIn .engaged with talking := some 126, threshold := some 5 } with
    answerList := [⟨127, 160⟩] }

theorem witness_break_in : breakIn.readyList = [] ∧ breakIn.bestAt 5 = some ⟨127, 160⟩ ∧ breakIn.bestAt 6 = none ∧
    (∀ x : PosNo, (breakIn.pos x).state = .engaged → x = 3) ∧ (breakIn.pos 3).threshold = some 5 := by decide

/-- The arbiter has left a qualifying position without an offer. -/
theorem witness_arbitrated : let s : State := { breakIn with answerList := [] }
    ReadyListExact s ∧ s.arbitrate.readyList = [] ∧ (s.arbitrate.pos 3).state = .engaged ∧
      (s.arbitrate.pos 3).presented = none ∧ (s.arbitrate.pos 3).closePending = false ∧ (3 : PosNo).val < s.arbitrate.fitted ∧
      (s.arbitrate.pos 3).stack.length < 4 ∧ (s.arbitrate.pos 3).threshold = some 5 := by
  refine ⟨⟨by decide, by decide⟩, ?_⟩
  decide +kernel

theorem witness_retest : (({ posIn .engaged with presented := some 127, threshold := some 5 } : Position)).threshold = some 5 ∧
    (5 : Sys2Proof.Class) ≤ ((withSlot .presented (some 3)).group ((withSlot .presented (some 3)).slot 127).group).cls ∧
    ¬(6 : Sys2Proof.Class) ≤ ((withSlot .presented (some 3)).group ((withSlot .presented (some 3)).slot 127).group).cls := by
  decide

theorem witness_best : twoWait.seq = .run ∧ twoWait.actual = .day ∧ twoWait.nightPending = false ∧
    ({ twoWait with actual := .lapsed } : State).actual ≠ .day ∧
    ({ running.settings.groups[(0 : GroupNo)] with grain := 63 } : GroupSettings).grain ≠ 0 ∧
    running.settings.groups[(0 : GroupNo)].grain = 0 := by decide

/-! Ticks, expiries and modes. -/

theorem witness_seconds : running.seq = .run ∧ ListFollows running ∧ running.secondAtQueue = false ∧
    ({ running with secondAtQueue := true } : State).secondAtQueue = true ∧ running.secondAtSlots = false ∧
    ({ running with secondAtSlots := true } : State).secondAtSlots = true :=
  ⟨rfl, reset_list_follows _ rfl rfl, rfl, rfl, rfl, rfl⟩

/-- A call tick with nothing due, before RUN, and with calls that are due. -/
theorem witness_tick : NothingFound running ∧ State.reset.seq ≠ .run ∧ CallStateAgrees busy ∧
    busy.expired (busy.slot 3).deadline = true ∧ busy.expired busy.supervision = true :=
  ⟨nothing_found _ rfl rfl rfl rfl rfl, by decide, busy_agrees, by decide, by decide⟩

/-- A deadline due now, due one tick from now, and none. -/
theorem witness_due : running.expired (some 0) = true ∧ running.expired (some 1) = false ∧ running.expired none = false := by
  decide

theorem witness_expiry (d : Disp) : ((running.setSlot 127 { Slot.empty with disp := d, deadline := some 0 }).slot 127).disp = d ∧
    running.expired ((running.setSlot 127 { Slot.empty with disp := d, deadline := some 0 }).slot 127).deadline = true := by
  refine ⟨by simp, ?_⟩
  rw [State.slot_setSlot_same]; rfl

theorem witness_miss (st : PosState) : let s := (dueAt 0).setPos 3 { posIn st with presented := some 127 }
    (s.slot 127).disp = .presented ∧ (s.slot 127).position = some 3 ∧ (s.pos 3).state = st ∧
      (s.pos 3).presented = some 127 ∧ s.seq = .run ∧ s.expired (s.slot 127).deadline = true := by
  refine ⟨by simp [dueAt], by simp [dueAt], by simp [posIn], by simp, rfl, ?_⟩
  rw [State.slot_setPos, dueAt, State.slot_setSlot_same]
  show running.expired (some 0) = true
  decide

theorem witness_wrapup : ({ posIn .wrapup with wrapDeadline := some 0 } : Position).state = .wrapup ∧
    running.expired ({ posIn .wrapup with wrapDeadline := some 0 } : Position).wrapDeadline = true := by decide

theorem witness_supervision : CallStateAgrees busy ∧ busy.seq = .run ∧ busy.actual = .day ∧
    busy.expired busy.supervision = true := ⟨busy_agrees, rfl, rfl, by decide⟩

theorem witness_night : CallStateAgrees busy ∧ (∀ p : PosNo, busy.fitted ≤ p.val → (busy.pos p).state = .closed) ∧
    (busy.pos 3).state = .engaged ∧
    CallStateAgrees running ∧ (∀ p : PosNo, running.fitted ≤ p.val → (running.pos p).state = .closed) ∧
    ({ running with nightPending := true } : State).nightPending = true ∧ running.actual = .day ∧
    (∀ p : PosNo, p.val < running.fitted → (running.pos p).state ≠ .engaged) ∧ running.nightPending = false ∧
    (3 : PosNo).val < running.fitted ∧ ((running.setPos 3 (posIn .engaged)).pos 3).state = .engaged :=
  ⟨busy_agrees, by decide, by decide, agrees_empty _ rfl rfl rfl rfl (running_started .post) rfl rfl, by decide, rfl, rfl,
    by decide, rfl, by decide, by decide⟩

/-- `running` in actual mode `m` with requested mode `v` and SUPERVISION code `code`. -/
def inMode (m : Mode) (v : Service) (code : BitVec 8) : State :=
  { running with actual := m, requested := v, settings := { running.settings with supervision := code } }

/-- MODE writes and heartbeats are taken in every mode, with each SUPERVISION code and both requested modes. -/
theorem witness_modes (m : Mode) (v : Service) (code : BitVec 8) : Serving (inMode m v code) ∧
    actsForConsole .console = true ∧ (inMode m v code).actual = m ∧ (inMode m v code).requested = v ∧
    (inMode m v code).settings.supervision = code := ⟨⟨rfl, rfl, rfl, rfl⟩, rfl, rfl, rfl, rfl⟩

/-- NIGHT, LAPSED with each request, and the codes 0, 1 and 4 in DAY and LAPSED; MODE data that leaves lane 0 out and
that holds an undefined value. -/
theorem witness_mode_values : (inMode .night .night 1).actual = .night ∧ (inMode .lapsed .day 0).actual = .lapsed ∧
    (inMode .lapsed .night 4).requested = .night ∧ (inMode .day .day 0).settings.supervision.toNat = 0 ∧
    (inMode .day .day 1).settings.supervision.toNat = 1 ∧ (inMode .lapsed .day 4).settings.supervision.toNat = 4 ∧
    (0xE#4 : Lanes).getLsbD 0 = false ∧ (0x1#4 : Lanes).getLsbD 0 = true ∧ (0x00000003#32).toNat % 4 = 3 ∧
    (0xFFFFFFFC#32).toNat % 4 = 0 := by decide

theorem witness_deadline : (255#8) ≠ 0 ∧ 0 ≤ 10 * (255#8).toNat ∧ 2550 ≤ 10 * (255#8).toNat := by decide

/-! Traffic. -/

theorem witness_console : Serving running ∧ actsForConsole .console = true ∧ actsForConsole .maint = true ∧
    SettingWord.groupSecond 31 ≠ .mode := ⟨serving_running, rfl, rfl, by decide⟩

theorem witness_stray : Serving running ∧ mayWrite (running.reach 0x7FA).place .maint = false ∧ (0x7FA : Offset) ∈ postedOffsets ∧
    mayWrite (running.reach 0x000).place .link = false ∧ (0x000 : Offset) ∉ postedOffsets := by
  refine ⟨serving_running, by decide +kernel, mem_postedOffsets.2 (by decide), by decide, fun h => ?_⟩
  exact absurd (mem_postedOffsets.1 h) (by decide)

theorem witness_plain : (running.reach 0x00A).place = .setupPlain ∧ (running.reach 0x01F).place = .statusPlain ∧
    (running.reach 0x3FF).place = .openPlain ∧ (running.reach 0x0C6).place = .blockPlain 0 ∧
    (running.reach 0x404).place = .destination 0 ∧ (running.reach 0x7FF).place = .caller 127 ∧
    (running.reach 0x0FF).place = .view 3 7 ∧ (running.reach 0x0C8).place = .view 0 0 ∧
    (running.reach 0x009).place = .restart ∧ (0x00000053#32) ≠ Config.restartValue ∧
    mayWrite (running.reach 0x0FF).place .console = true ∧ mayWrite (running.reach 0x3FF).place .link = true ∧
    windowOffset running.straps.wbase 0 = none ∧ (0x7#4 : Lanes) ≠ fullLanes := by decide +kernel

theorem witness_partial : (running.reach 0x7F9).place.isCommand = true ∧ mayWrite (running.reach 0x7F9).place .link = true ∧
    (0x0#4 : Lanes) ≠ fullLanes ∧ (0xE#4 : Lanes) ≠ fullLanes := by decide

/-- A locked read; the write that completes the sequence, one by another requester, one of another word; a read without
LOCK of another word, which abandons it, and of the locked word; and a RESTART, which leaves RUN. -/
theorem witness_lock : let s : State := { running with lock := some ⟨.other, 0x7FF⟩ }
    let takes (c : Instr) (write lock : Bool) (r : Requester) (off : Offset) : Prop :=
      ∃ txn, busTxn s c = some txn ∧ windowOffset s.straps.wbase txn.addr = some off ∧ (s.reach off).offset = off ∧
        txn.write = write ∧ txn.lock = lock ∧ requesterOf txn = r ∧ ∃ t, exec c s = .next t
    Serving s ∧ takes (.lockedRead .link (s.addr 0) fullLanes) false true .link 0 ∧
      takes (.plainWrite .other (s.addr 0x7FF) fullLanes 0 true) true true .other 0x7FF ∧
      takes (.plainWrite .link (s.addr 0x7FF) fullLanes 0 true) true true .link 0x7FF ∧
      takes (.plainWrite .other (s.addr 0x7FE) fullLanes 0 true) true true .other 0x7FE ∧
      takes (.readWithoutLock .console (s.addr 0x000) fullLanes) false false .console 0x000 ∧
      takes (.readWithoutLock .console (s.addr 0x7FF) fullLanes) false false .console 0x7FF ∧
      takes (.restart .console false s.pins) true false .console 0x009 ∧
      after s (.restart .console false s.pins) (fun t => decide (t.seq = .run)) = some false := by
  refine ⟨⟨rfl, rfl, rfl, rfl⟩, ?_, ?_, ?_, ?_, ?_, ?_, ?_, by decide +kernel⟩ <;>
    refine ⟨_, rfl, ?_, ?_, rfl, rfl, rfl, ⟨_, rfl⟩⟩ <;> decide

/-- The locked word's entry is the oldest of the sixteen. -/
theorem witness_posting : fullQueue.length = 16 ∧ (0x7FA : Offset) ∉ fullQueue.map Post.offset ∧
    fullQueue = [⟨0x402, 0⟩] ++ ⟨0x010, 0⟩ :: fullQueue.drop 2 ∧
    (∀ e ∈ [(⟨0x402, 0⟩ : Post)], (some (⟨.console, 0x402⟩ : Lock)).map Lock.offset = some e.offset) ∧
    (some (⟨.console, 0x402⟩ : Lock)).map Lock.offset ≠ some (0x010 : Offset) ∧
    ([(⟨0x402, 1⟩ : Post), ⟨0x7FA, 1⟩].map Post.offset).Nodup ∧ (fullQueue.drop 1).length + 1 ≤ 16 ∧
    (([(⟨0x402, 1⟩ : Post)] ++ [(⟨0x7FA, 1⟩ : Post)]).map Post.offset).Nodup := by decide

theorem witness_post : running.seq = .run ∧ running.owed = [] ∧ running.held = none ∧ running.mem.wf = true ∧
    State.reset.seq ≠ .run ∧ allOwed.owed ≠ [] := by
  refine ⟨rfl, rfl, rfl, rfl, by decide, ?_⟩
  simp [allOwed, postedOffsets]

/-- `running` with `k` + 1 issues owed, a transaction whose own access is `a` held behind them, and `bus` behind it. -/
def heldBehind (k : Nat) (a : Access) (behind : Nat) (bus : List Txn) : State :=
  { running with owed := List.replicate (k + 1) ⟨0x7FA, 0⟩, held := some ⟨lastTxn, a, behind⟩, bus := bus }

/-- A held read, write, RESTART and stray write, with their last issue or with one more to come, and a transaction on the
bus behind. -/
theorem witness_held (a : Access) (k behind : Nat) : (heldBehind k a behind [lastTxn]).mem.wf = true ∧
    (heldBehind k a behind [lastTxn]).owed = ⟨0x7FA, 0⟩ :: List.replicate k ⟨0x7FA, 0⟩ ∧
    (heldBehind k a behind [lastTxn]).held = some ⟨lastTxn, a, behind⟩ ∧
    List.replicate 0 (⟨0x7FA, 0⟩ : Post) = [] ∧ List.replicate 1 (⟨0x7FA, 0⟩ : Post) ≠ [] ∧
    (Access.nothing = .nothing ∧ 1 ≤ 1 ∧ 1 < 2) ∧ (Access.read 0 none ≠ .nothing) := by
  refine ⟨rfl, List.replicate_succ, rfl, rfl, by decide, by decide, by decide⟩

/-- R144, R167: a stray write that owed one of the two issues completes with the first of them. -/
theorem test_stray_wait : after (heldBehind 1 .nothing 1 []) .owedIssue (fun t => (t.held.isNone, t.owed.length)) =
    some (true, 1) := by decide +kernel

/-- R146, R150: a held read takes the value of the moment its wait ends. -/
theorem test_held_read : after (heldBehind 0 (.read (running.addr 0x7FA) (some 0x7FA)) 1 []) .owedIssue
    (fun t => (t.reply, t.held.isNone)) = some (some 0x0000FFF0#32, true) := by decide +kernel

/-- An armed deadline, a short stack and list, and a fault record, valid and not. -/
theorem witness_overlays : NotBehind busy.callTicks (busy.slot 2).deadline ∧ (busy.pos 3).stack.length ≤ 4 ∧
    busy.readyList.Nodup ∧ busy.answerList.length ≤ 128 ∧ busy.fault = none ∧
    ({ busy with fault := some ⟨.sweepDiscard, none, 0x7FA, 0⟩ } : State).fault = some ⟨.sweepDiscard, none, 0x7FA, 0⟩ := by
  refine ⟨(notBehind_iff _ _).2 (by decide), by decide, by decide, by decide, rfl, rfl⟩

theorem witness_fault : State.reset.fault = none ∧
    ({ running with fault := some ⟨.lineRefused, some .link, 0x7F9, 1⟩, overflow := 15 } : State).fault =
      some ⟨.lineRefused, some .link, 0x7F9, 1⟩ := by decide

end Sys2Proof.Tests
end

section
/-! PROOFS. Line events: what each event is judged as in each disposition, and the word it leaves. -/

namespace Sys2Proof.Machine

open Sys2Proof.Safety

/-! The refusals (R16, R18, R23 to R28). -/

/-- A code that is none of 1 to 6 is refused (R28). -/
theorem lineEvent_unknown (s : State) (n : SlotNo) {code : BitVec 8} (g : GroupNo)
    (h : code.toNat = 0 ∨ 6 < code.toNat) : s.lineEvent n code g = ⟨s, .refusedCode⟩ := by
  unfold State.lineEvent
  split
  case h_7 => rfl
  all_goals omega

theorem offerEvent_used {s : State} {n : SlotNo} (g : GroupNo) (h : (s.slot n).disp ≠ .free) :
    s.offerEvent n g = ⟨s, .refusedState⟩ := by simp [State.offerEvent, h]

theorem offerEvent_barred {s : State} {n : SlotNo} {g : GroupNo} (h : (s.slot n).disp = .free)
    (hg : (s.group g).cls = 0) : s.offerEvent n g = ⟨s, .refusedBarred⟩ := by simp [State.offerEvent, h, hg]

theorem abandonEvent_free {s : State} {n : SlotNo} (h : (s.slot n).disp = .free) :
    s.abandonEvent n = ⟨s, .refusedState⟩ := by simp [State.abandonEvent, h]

theorem isAtDestination_iff (d : Disp) : d.isAtDestination = true ↔ d = .extended ∨ d = .camped := by
  cases d <;> simp [Disp.isAtDestination]

theorem isAtDestination_eq_false {d : Disp} (he : d ≠ .extended) (hc : d ≠ .camped) : d.isAtDestination = false := by
  rw [Bool.eq_false_iff, ne_eq, isAtDestination_iff, not_or]
  exact ⟨he, hc⟩

theorem extAnswerEvent_elsewhere {s : State} {n : SlotNo} (h : (s.slot n).disp.isAtDestination = false) :
    s.extAnswerEvent n = ⟨s, .refusedState⟩ := by simp [State.extAnswerEvent, h]

theorem extFailEvent_elsewhere {s : State} {n : SlotNo} (h : (s.slot n).disp.isAtDestination = false) :
    s.extFailEvent n = ⟨s, .refusedState⟩ := by simp [State.extFailEvent, h]

theorem extBusyEvent_elsewhere {s : State} {n : SlotNo} (h : (s.slot n).disp ≠ .extended) :
    s.extBusyEvent n = ⟨s, .refusedState⟩ := by simp [State.extBusyEvent, h]

theorem extFreeEvent_elsewhere {s : State} {n : SlotNo} (h : (s.slot n).disp ≠ .camped) :
    s.extFreeEvent n = ⟨s, .refusedState⟩ := by simp [State.extFreeEvent, h]

/-- A refused LINE write that carries `code` in lane 0 (R16, R198). -/
theorem lineTxn_refused {s : State} (hs : Serving s) {r : Requester} (hr : actsForLink r = true) {path : CallPath}
    {n : SlotNo} (hp : PathReaches s path n) (code : BitVec 8) (upper : BitVec 24) (lock : Bool) {res : Result}
    (hres : res ≠ .taken) (he : s.lineEvent n code (groupOfField (upper.extractLsb' 0 5)) = ⟨s, res⟩) :
    WriteDone s (s.raiseFault ⟨.lineRefused, some r, slotOffset n 1, upper ++ code⟩)
      (s.arrive (s.lineTxn r path code upper lock)) (s.lineTxn r path code upper lock) (slotOffset n 1) fullLanes
      (setLane3 (upper ++ code) res.code) :=
  line_refused hs hr hp (upper ++ code) lock res hres (by rw [laneOf_zero, group_of_upper]; exact he)

/-- Settles O22: each refusal is one case of the judgement, and `line_refused` says what a refused write leaves. -/
theorem refusedLineEventsOnlyRaiseAFault : Obligations.RefusedLineEventsOnlyRaiseAFault := by
  intro s r path upper data lock n hs hr hp
  refine ⟨fun h => ⟨_, rfl, ?_⟩, fun h hg => ⟨_, rfl, ?_⟩, fun h => ⟨_, rfl, ?_⟩,
    fun he hc => ⟨⟨_, rfl, ?_⟩, ⟨_, rfl, ?_⟩⟩, fun h => ⟨_, rfl, ?_⟩, fun h => ⟨_, rfl, ?_⟩, fun h => ⟨_, rfl, ?_⟩⟩
  · exact lineTxn_refused hs hr hp 1 upper lock (by decide) (offerEvent_used _ h)
  · exact lineTxn_refused hs hr hp 1 upper lock (by decide) (offerEvent_barred h hg)
  · exact lineTxn_refused hs hr hp 2 upper lock (by decide) (abandonEvent_free h)
  · exact lineTxn_refused hs hr hp 3 upper lock (by decide)
      (extAnswerEvent_elsewhere (isAtDestination_eq_false he hc))
  · exact lineTxn_refused hs hr hp 6 upper lock (by decide) (extFailEvent_elsewhere (isAtDestination_eq_false he hc))
  · exact lineTxn_refused hs hr hp 4 upper lock (by decide) (extBusyEvent_elsewhere h)
  · exact lineTxn_refused hs hr hp 5 upper lock (by decide) (extFreeEvent_elsewhere h)
  · exact line_refused hs hr hp data lock _ (by decide) (lineEvent_unknown s n _ h)

/-! The events taken that leave every position alone. -/

/-- ABANDON of a waiting call (R19). -/
theorem abandonEvent_waiting {s : State} {n : SlotNo} (h : (s.slot n).disp = .queued ∨ (s.slot n).disp = .recall) :
    s.abandonEvent n = ⟨s.abandonWaiting n, .taken⟩ := by
  rcases h with h | h <;> simp [State.abandonEvent, h]

/-- ABANDON of a call away from the positions (R23). -/
theorem abandonEvent_away {s : State} {n : SlotNo}
    (h : (s.slot n).disp = .held ∨ (s.slot n).disp = .extended ∨ (s.slot n).disp = .camped) :
    s.abandonEvent n = ⟨s.freeSlot n, .taken⟩ := by
  rcases h with h | h | h <;> simp [State.abandonEvent, h]

theorem extAnswerEvent_taken {s : State} {n : SlotNo} (h : (s.slot n).disp = .extended ∨ (s.slot n).disp = .camped) :
    s.extAnswerEvent n = ⟨s.freeSlot n, .taken⟩ := by
  rw [State.extAnswerEvent, if_pos ((isAtDestination_iff _).2 h)]

theorem extFailEvent_taken {s : State} {n : SlotNo} (h : (s.slot n).disp = .extended ∨ (s.slot n).disp = .camped) :
    s.extFailEvent n = ⟨(s.recallSlot n).arbitrate, .taken⟩ := by
  rw [State.extFailEvent, if_pos ((isAtDestination_iff _).2 h)]

/-- Settles O23: each event leaves what `freeSlot` makes, with the abandoned count for a waiting call. -/
theorem abandonAndExtAnswerFreeASlotAtNoPosition : Obligations.AbandonAndExtAnswerFreeASlotAtNoPosition := by
  intro s r path upper lock n hs hr hp
  refine ⟨fun h => ⟨_, rfl, ?_⟩, fun h => ⟨_, rfl, ?_⟩, fun h => ⟨_, rfl, ?_⟩⟩
  · exact line_taken hs hr hp 2 upper lock (s.abandonWaiting n) (abandonEvent_waiting h)
  · exact line_taken hs hr hp 2 upper lock (s.freeSlot n) (abandonEvent_away h)
  · exact line_taken hs hr hp 3 upper lock (s.freeSlot n) (extAnswerEvent_taken h)

/-! The recall transition (R12). -/

/-- A 3-bit count one higher, holding at 7 (R12, R46). -/
theorem satInc_three (x : BitVec 3) : satInc x = if x = 7 then 7 else x + 1 := by
  by_cases h : x = 7
  · subst h; rfl
  · rw [if_neg h, satInc, if_neg (by simpa using h)]

/-- The recall transition in full: the slot's new record, its place and score in the list, the cause and the count. -/
theorem recallSlot_eq (s : State) (n : SlotNo) :
    s.recallSlot n = { s with
      slots := s.slots.set n ((s.slot n).recalled (s.group (s.slot n).group).limit)
      answerList := s.answerList ++ [⟨n, urgency (s.group (s.slot n).group) 0 (satInc (s.slot n).recalls).toNat
        ((s.slot n).final || decide ((s.group (s.slot n).group).limit ≤ satInc (s.slot n).recalls))⟩]
      latched := s.latched ||| causeRecall
      counters := s.counters.set (s.slot n).group
        { s.counts (s.slot n).group with recalled := satInc (s.counts (s.slot n).group).recalled } } := by
  have hscore : (s.setSlot n ((s.slot n).recalled (s.group (s.slot n).group).limit)).score n =
      urgency (s.group (s.slot n).group) 0 (satInc (s.slot n).recalls).toNat
        ((s.slot n).final || decide ((s.group (s.slot n).group).limit ≤ satInc (s.slot n).recalls)) := by
    rw [State.score, State.slot_setSlot_same]; rfl
  rw [← hscore]
  rfl

/-- Settles O26: `recallSlot_eq` is the transition, and EXT_FAIL is taken with it in both dispositions it applies to. -/
theorem recallTransitionAndExtFail : Obligations.RecallTransitionAndExtFail := by
  refine ⟨fun s n => ?_, fun s r path upper lock n hs hr hp h => ⟨_, rfl, ?_⟩⟩
  · rw [recallSlot_eq, Slot.recalled, satInc_three]
  · exact line_taken hs hr hp 6 upper lock (s.recallSlot n).arbitrate (extFailEvent_taken h)

end Sys2Proof.Machine
end

section
/-! PROOFS. Deadlines and the count. -/

namespace Sys2Proof.Machine

open Sys2Proof.Safety

/-! Deadlines. -/

/-- What a deadline of the part belongs to (R103). -/
inductive TimerOwner where
  | slot (n : SlotNo)
  | position (p : PosNo)
  | supervision

/-- The deadline is not behind the count, and it has come only where it may be due. -/
def DeadlineAhead (due : Prop) (now : Tick) (d : Option Tick) : Prop := NotBehind now d ∧ (d = some now → due)

theorem deadlineAhead_none (due : Prop) (now : Tick) : DeadlineAhead due now none :=
  ⟨fun _ h => by simp at h, fun h => by simp at h⟩

theorem DeadlineAhead.mono {due due' : Prop} {now : Tick} {d : Option Tick} (h : DeadlineAhead due now d)
    (hd : due → due') : DeadlineAhead due' now d := ⟨h.1, fun e => hd (h.2 e)⟩

/-- A deadline armed now lies 10 to 2550 call ticks ahead (R103, R104). -/
theorem deadlineAhead_armAt (due : Prop) (now : Tick) (seconds : BitVec 8) :
    DeadlineAhead due now (armAt now seconds) := by
  unfold armAt
  split
  · exact deadlineAhead_none due now
  · rename_i h
    have hlen : seconds.toNat ≠ 0 := fun e => h (BitVec.eq_of_toNat_eq e)
    have hlt := seconds.isLt
    have hdist : (now + 10#16 * seconds.setWidth 16 - now).toNat = 10 * seconds.toNat := by
      rw [BitVec.add_comm, BitVec.add_sub_cancel, BitVec.toNat_mul, BitVec.toNat_setWidth]
      rw [show (10#16).toNat = 10 from rfl]
      omega
    refine ⟨fun d hd => ?_, fun hd => ?_⟩
    · rw [← Option.some.inj hd, hdist]; omega
    · rw [Option.some.inj hd, BitVec.sub_self] at hdist
      have : (0#16).toNat = 0 := rfl
      omega

/-- A deadline not behind the count is found expired exactly when it has come (R105). -/
theorem expiredAt_iff {now : Tick} {d : Option Tick} (h : NotBehind now d) : expiredAt now d = true ↔ d = some now := by
  cases d with
  | none => simp [expiredAt]
  | some x =>
    have hx := h x rfl
    simp only [expiredAt, decide_eq_true_eq, Option.some.injEq]
    constructor
    · intro hlt; bv_omega
    · rintro rfl; simp

/-- A deadline that has not come is not behind the next count. -/
theorem DeadlineAhead.notBehind_next {now : Tick} {d : Option Tick} (h : DeadlineAhead False now d) :
    NotBehind (now + 1) d := by
  intro x hx
  have hle := h.1 x hx
  have hne : x ≠ now := fun e => h.2 (by rw [hx, e])
  bv_omega

end Sys2Proof.Machine
end

section
/-! PROOFS. The invariant of call state in RUN. -/

namespace Sys2Proof.Machine

open Sys2Proof.Safety

/-! The invariant in RUN, record by record. -/

/-- A disposition in which a position holds the slot (R45, R76). -/
def Disp.isSeated : Disp → Bool
  | .talking => true
  | .presented => true
  | .split => true
  | _ => false

/-- What a slot record keeps by itself, `due` saying whether its deadline may have come. -/
structure SlotFits (due : Prop) (now : Tick) (sl : Slot) : Prop where
  fields : SlotFieldsFit sl
  home : HomeFits sl
  placed : sl.disp.isSeated = true → sl.position.isSome
  deadline : DeadlineAhead due now sl.deadline

/-- What a position record keeps by itself. -/
structure PositionFits (due unfitted : Prop) (now : Tick) (q : Position) : Prop where
  fields : PositionFieldsFit q
  stack_nodup : (q.stack.map StackEntry.slot).Nodup
  unfitted : unfitted → q = Position.empty
  deadline : DeadlineAhead due now q.wrapDeadline

/-- An ENGAGED position talks at a threshold and a PRESENTING one presents (R74, R75). -/
def Staffed (q : Position) : Prop :=
  (q.state = .engaged → q.talking.isSome ∧ q.threshold.isSome) ∧ (q.state = .presenting → q.presented.isSome)

/-- The threshold `t` is the one the saved class gives (R46). -/
def ThresholdOf (savedClass t : Option Class) : Prop := ∃ c, savedClass = some c ∧ t = some (thresholdFor c)

/-- The record `sl` of slot `n` and the record `q` of position `p` agree on what `p` holds of `n` (R45, R46, R76). -/
structure Linked (n : SlotNo) (sl : Slot) (p : PosNo) (q : Position) : Prop where
  talking : (sl.disp = .talking ∧ sl.position = some p) ↔ (q.state = .engaged ∧ q.talking = some n)
  presented : (sl.disp = .presented ∧ sl.position = some p) ↔ q.presented = some n
  split : (sl.disp = .split ∧ sl.position = some p) ↔ ∃ e ∈ q.stack, e.slot = n
  threshold : q.state = .engaged → q.talking = some n → ThresholdOf sl.savedClass q.threshold
  saved : ∀ e ∈ q.stack, e.slot = n → ThresholdOf sl.savedClass (some e.threshold)

/-- In RUN the owners of call state agree, where a deadline may have come only if its owner is `due`, and position
`loose`, if any, need not be staffed: an event has taken its call and not yet moved it on. -/
structure CallsFit (due : TimerOwner → Prop) (loose : Option PosNo) (s : State) : Prop where
  seq : s.seq = .run
  stage : s.stage = .running
  slots : ∀ n, SlotFits (due (.slot n)) s.callTicks (s.slot n)
  positions : ∀ p : PosNo, PositionFits (due (.position p)) (s.fitted ≤ p.val) s.callTicks (s.pos p)
  staffed : ∀ p, loose ≠ some p → Staffed (s.pos p)
  linked : ∀ n p, Linked n (s.slot n) p (s.pos p)
  ready : ReadyListExact s
  listed : ListFollows s
  supervised : DeadlineAhead (due .supervision) s.callTicks s.supervision
  supervision_day : s.supervision.isSome → s.actual = .day

/-- Any deadline may have come. -/
def anyDue : TimerOwner → Prop := fun _ => True

/-- The owners of `due` but for `o`, whose deadline has been taken. -/
def withoutDue (due : TimerOwner → Prop) (o : TimerOwner) : TimerOwner → Prop := fun x => due x ∧ x ≠ o

section
variable {due due' : TimerOwner → Prop} {loose : Option PosNo} {s t : State} {n : SlotNo} {p : PosNo}

theorem CallsFit.mono (h : CallsFit due loose s) (hd : ∀ o, due o → due' o) : CallsFit due' loose s where
  seq := h.seq
  stage := h.stage
  slots n := { h.slots n with deadline := (h.slots n).deadline.mono (hd _) }
  positions p := { h.positions p with deadline := (h.positions p).deadline.mono (hd _) }
  staffed := h.staffed
  linked := h.linked
  ready := h.ready
  listed := h.listed
  supervised := h.supervised.mono (hd _)
  supervision_day := h.supervision_day

theorem CallsFit.of_without {o : TimerOwner} (h : CallsFit (withoutDue due o) loose s) : CallsFit due loose s :=
  h.mono fun _ k => k.1

/-- Every position but the loose one is staffed; a staffed one need not be loose. -/
theorem CallsFit.loosen (h : CallsFit due none s) (p : PosNo) : CallsFit due (some p) s :=
  { h with staffed := fun q _ => h.staffed q (by simp) }

theorem CallsFit.tighten (h : CallsFit due (some p) s) (hp : Staffed (s.pos p)) : CallsFit due none s :=
  { h with
    staffed := fun q _ => by
      by_cases hq : p = q
      · exact hq ▸ hp
      · exact h.staffed q (by simpa using hq) }

/-- The parts of the state the invariant speaks of. -/
def State.callPart (s : State) :=
  (s.seq, s.stage, s.slots, s.positions, s.straps, s.callTicks, s.readyList, s.answerList, s.supervision, s.actual)

/-- The invariant looks at these parts alone. -/
theorem CallsFit.of_callPart (h : CallsFit due loose s) (e : t.callPart = s.callPart) : CallsFit due loose t := by
  obtain ⟨h1, h2, h3, h4, h5, h6, h7, h8, h9, h10⟩ :
      t.seq = s.seq ∧ t.stage = s.stage ∧ t.slots = s.slots ∧ t.positions = s.positions ∧ t.straps = s.straps ∧
        t.callTicks = s.callTicks ∧ t.readyList = s.readyList ∧ t.answerList = s.answerList ∧
        t.supervision = s.supervision ∧ t.actual = s.actual := by
    simpa only [State.callPart, Prod.mk.injEq] using e
  have hslot : ∀ n, t.slot n = s.slot n := fun n => by rw [State.slot, h3]; rfl
  have hpos : ∀ p, t.pos p = s.pos p := fun p => by rw [State.pos, h4]; rfl
  have hfit : t.fitted = s.fitted := by rw [State.fitted, h5]; rfl
  constructor
  · rw [h1]; exact h.seq
  · rw [h2]; exact h.stage
  · simpa only [hslot, h6] using h.slots
  · simpa only [hpos, h6, hfit] using h.positions
  · simpa only [hpos] using h.staffed
  · simpa only [hslot, hpos] using h.linked
  · simpa only [ReadyListExact, hpos, h7] using h.ready
  · simpa only [ListFollows, hslot, h8] using h.listed
  · simpa only [h6, h9] using h.supervised
  · simpa only [h9, h10] using h.supervision_day

/-! What the records say of each other. -/

theorem fits_ne_closed_fitted (h : CallsFit due loose s) (hp : (s.pos p).state ≠ .closed) : p.val < s.fitted := by
  by_contra hlt
  exact hp (by rw [(h.positions p).unfitted (by omega)]; rfl)

/-- A slot that no position holds. -/
theorem CallsFit.unheld (h : CallsFit due loose s) (hn : (s.slot n).disp.isSeated = false) (p : PosNo) :
    ¬((s.pos p).state = .engaged ∧ (s.pos p).talking = some n) ∧ (s.pos p).presented ≠ some n ∧
      ¬∃ e ∈ (s.pos p).stack, e.slot = n := by
  have hl := h.linked n p
  rw [← hl.talking, ne_eq, ← hl.presented, ← hl.split]
  cases hd : (s.slot n).disp <;> simp_all [Disp.isSeated]

end

/-! The two lists. -/

section
variable {s t : State} {n : SlotNo} {p : PosNo} {v : Slot} {x : Position}

theorem mem_withoutPos {l : List PosNo} {p q : PosNo} : q ∈ withoutPos l p ↔ q ∈ l ∧ q ≠ p := by simp [withoutPos]

theorem readyListExact_kept (h : ReadyListExact s) (hpos : ∀ q, t.pos q = if q = p then x else s.pos q)
    (hl : t.readyList = s.readyList) (hx : x.state = .ready ↔ (s.pos p).state = .ready) : ReadyListExact t := by
  refine ⟨hl ▸ h.1, fun q => ?_⟩
  rw [hl, h.2, hpos]
  split
  · rename_i e; rw [e, hx]
  · rfl

theorem readyListExact_removed (h : ReadyListExact s) (hpos : ∀ q, t.pos q = if q = p then x else s.pos q)
    (hl : t.readyList = withoutPos s.readyList p) (hx : x.state ≠ .ready) : ReadyListExact t := by
  refine ⟨hl ▸ h.1.filter _, fun q => ?_⟩
  rw [hl, mem_withoutPos, h.2, hpos]
  split
  · rename_i e; simp [e, hx]
  · rename_i e; simp [e]

theorem readyListExact_appended (h : ReadyListExact s) (hpos : ∀ q, t.pos q = if q = p then x else s.pos q)
    (hl : t.readyList = withoutPos s.readyList p ++ [p]) (hx : x.state = .ready) : ReadyListExact t := by
  refine ⟨?_, fun q => ?_⟩
  · rw [hl, List.nodup_append]
    refine ⟨h.1.filter _, List.nodup_singleton _, fun a ha b hb => ?_⟩
    rw [List.mem_singleton.1 hb]
    exact (mem_withoutPos.1 ha).2
  · rw [hl, List.mem_append, mem_withoutPos, h.2, List.mem_singleton, hpos]
    split
    · rename_i e; simp [e, hx]
    · rename_i e; simp [e]

theorem listFollows_kept (h : ListFollows s) (hslot : ∀ m, t.slot m = if m = n then v else s.slot m)
    (hl : t.answerList = s.answerList) (hv : v.disp.isListed = (s.slot n).disp.isListed) : ListFollows t := by
  refine ⟨hl ▸ h.1, fun m => ?_⟩
  rw [hl, h.2, hslot]
  split
  · rename_i e; rw [e, hv]
  · rfl

theorem listFollows_unlisted (h : ListFollows s) (hslot : ∀ m, t.slot m = if m = n then v else s.slot m)
    (hl : t.answerList = s.answerList.filter fun e => decide (e.slot ≠ n)) (hv : v.disp.isListed = false) :
    ListFollows t := by
  refine ⟨?_, fun m => ?_⟩
  · rw [hl]; exact h.1.sublist (List.filter_sublist.map _)
  · have hmem : m ∈ t.answerList.map Listed.slot ↔ m ∈ s.answerList.map Listed.slot ∧ m ≠ n := by
      simp only [hl, List.mem_map, List.mem_filter, decide_eq_true_eq]
      constructor
      · rintro ⟨e, ⟨he, hne⟩, rfl⟩; exact ⟨⟨e, he, rfl⟩, hne⟩
      · rintro ⟨⟨e, he, rfl⟩, hne⟩; exact ⟨e, ⟨he, hne⟩, rfl⟩
    rw [hmem, h.2, hslot]
    split
    · rename_i e; simp [e, hv]
    · rename_i e; simp [e]

theorem listFollows_joined (h : ListFollows s) (hslot : ∀ m, t.slot m = if m = n then v else s.slot m) {u : Score}
    (hl : t.answerList = s.answerList ++ [⟨n, u⟩]) (hold : (s.slot n).disp.isListed = false)
    (hv : v.disp.isListed = true) : ListFollows t := by
  have hn : n ∉ s.answerList.map Listed.slot := by rw [h.2, hold]; simp
  refine ⟨?_, fun m => ?_⟩
  · rw [hl, List.map_append, List.nodup_append]
    refine ⟨h.1, by simp, fun a ha b hb => ?_⟩
    rw [List.map_singleton, List.mem_singleton] at hb
    rintro rfl
    exact hn (show n ∈ _ from (show a = n from hb) ▸ ha)
  · rw [hl, List.map_append, List.mem_append, h.2, hslot]
    split
    · rename_i e; simp [e, hv]
    · rename_i e; simp [e]

/-- A slot that is not listed has no entry to take out. -/
theorem unlist_of_unlisted (h : ListFollows s) (hn : (s.slot n).disp.isListed = false) : s.unlist n = s := by
  have hfil : (s.answerList.filter fun e => decide (e.slot ≠ n)) = s.answerList := by
    rw [List.filter_eq_self]
    intro e he
    have hmem := (h.2 e.slot).1 (List.mem_map_of_mem he)
    simpa using fun heq : e.slot = n => by rw [heq, hn] at hmem; simp at hmem
  rw [State.unlist, hfil]

end

end Sys2Proof.Machine
end

section
/-! PROOFS. What a change of one slot and one position must show. -/

namespace Sys2Proof.Machine

open Sys2Proof.Safety

section
variable {due : TimerOwner → Prop} {s t : State} {n : SlotNo} {p : PosNo} {v : Slot} {x : Position}

/-- The slot is held by position `p` or by none. -/
def SeatedOnlyAt (p : PosNo) (sl : Slot) : Prop := sl.disp.isSeated = true → sl.position = some p

/-- A record seated at `p` alone agrees with any other position that holds nothing of its slot. -/
theorem Linked.elsewhere {sl sl' : Slot} {q : PosNo} {y : Position} (h : Linked n sl q y) (hq : q ≠ p)
    (hold : SeatedOnlyAt p sl) (hnew : SeatedOnlyAt p sl') : Linked n sl' q y := by
  have away : ∀ z : Slot, SeatedOnlyAt p z → ∀ d : Disp, d.isSeated = true → ¬(z.disp = d ∧ z.position = some q) := by
    rintro z hz d hd ⟨rfl, hpos⟩
    exact hq (Option.some.inj (hpos.symm.trans (hz hd)))
  have h1 := h.talking.not.1 (away sl hold _ rfl)
  have h2 := h.presented.not.1 (away sl hold _ rfl)
  have h3 := h.split.not.1 (away sl hold _ rfl)
  exact ⟨iff_of_false (away sl' hnew _ rfl) h1, iff_of_false (away sl' hnew _ rfl) h2,
    iff_of_false (away sl' hnew _ rfl) h3, fun a b => absurd ⟨a, b⟩ h1, fun e he k => absurd ⟨e, he, k⟩ h3⟩

/-- A record seated nowhere agrees with a position that holds nothing of its slot. -/
theorem linked_unseated {q : Position} (hv : v.disp.isSeated = false)
    (ht : ¬(q.state = .engaged ∧ q.talking = some n)) (hp : q.presented ≠ some n) (hs : ¬∃ e ∈ q.stack, e.slot = n) :
    Linked n v p q := by
  have hd : ∀ d : Disp, d.isSeated = true → v.disp ≠ d := fun d hd e => by simp [e, hd] at hv
  exact ⟨iff_of_false (fun k => hd _ rfl k.1) ht, iff_of_false (fun k => hd _ rfl k.1) hp,
    iff_of_false (fun k => hd _ rfl k.1) hs, fun a b => absurd ⟨a, b⟩ ht, fun e he k => absurd ⟨e, he, k⟩ hs⟩

/-- One slot and one position move: what an event must show of the two records so that all records still agree. The
slot's deadline, if it has one now, has just been armed. -/
theorem CallsFit.change (h : CallsFit due (some p) s) (k : Kept s t)
    (hslot : ∀ m, t.slot m = if m = n then v else s.slot m) (hpos : ∀ q, t.pos q = if q = p then x else s.pos q)
    (hold : SeatedOnlyAt p (s.slot n)) (hnew : SeatedOnlyAt p v) (hv : SlotFits False s.callTicks v)
    (hx : PositionFits (due (.position p)) (s.fitted ≤ p.val) s.callTicks x) (hn : Linked n v p x)
    (hrest : ∀ m, m ≠ n → Linked m (s.slot m) p (s.pos p) → Linked m (s.slot m) p x)
    (hready : ReadyListExact t) (hlisted : ListFollows t) (hsup : t.supervision = s.supervision)
    (hact : t.actual = s.actual) : CallsFit (withoutDue due (.slot n)) (some p) t where
  seq := k.seq.trans h.seq
  stage := k.stage.trans h.stage
  slots m := by
    rw [k.callTicks, hslot]
    split
    · exact { hv with deadline := hv.deadline.mono False.elim }
    · rename_i hm
      exact { h.slots m with deadline := (h.slots m).deadline.mono fun a => ⟨a, by simpa using hm⟩ }
  positions q := by
    rw [k.callTicks, State.fitted, k.straps, hpos]
    split
    · rename_i hq; subst hq; exact { hx with deadline := hx.deadline.mono fun a => ⟨a, by simp⟩ }
    · exact { h.positions q with deadline := (h.positions q).deadline.mono fun a => ⟨a, by simp⟩ }
  staffed q hq := by
    rw [hpos, if_neg fun e => hq (by rw [e])]
    exact h.staffed q hq
  linked m q := by
    rw [hslot, hpos]
    by_cases hm : m = n <;> by_cases hq : q = p
    · rw [if_pos hm, if_pos hq, hm, hq]; exact hn
    · rw [if_pos hm, if_neg hq, hm]; exact (h.linked n q).elsewhere hq hold hnew
    · rw [if_neg hm, if_pos hq, hq]; exact hrest m hm (h.linked m p)
    · rw [if_neg hm, if_neg hq]; exact h.linked m q
  ready := hready
  listed := hlisted
  supervised := by rw [k.callTicks, hsup]; exact h.supervised.mono fun a => ⟨a, by simp⟩
  supervision_day := by rw [hsup, hact]; exact h.supervision_day

/-- One position changes and no slot does. -/
theorem CallsFit.changePos (h : CallsFit due (some p) s) (k : Kept s t) (hslot : ∀ m, t.slot m = s.slot m)
    (hpos : ∀ q, t.pos q = if q = p then x else s.pos q)
    (hx : PositionFits False (s.fitted ≤ p.val) s.callTicks x)
    (hlink : ∀ m, Linked m (s.slot m) p (s.pos p) → Linked m (s.slot m) p x)
    (hready : ReadyListExact t) (hlist : t.answerList = s.answerList) (hsup : t.supervision = s.supervision)
    (hact : t.actual = s.actual) : CallsFit (withoutDue due (.position p)) (some p) t where
  seq := k.seq.trans h.seq
  stage := k.stage.trans h.stage
  slots m := by
    rw [k.callTicks, hslot]
    exact { h.slots m with deadline := (h.slots m).deadline.mono fun a => ⟨a, by simp⟩ }
  positions q := by
    rw [k.callTicks, State.fitted, k.straps, hpos]
    split
    · rename_i hq; subst hq; exact { hx with deadline := hx.deadline.mono False.elim }
    · rename_i hq
      exact { h.positions q with deadline := (h.positions q).deadline.mono fun a => ⟨a, by simpa using hq⟩ }
  staffed q hq := by
    rw [hpos, if_neg fun e => hq (by rw [e])]
    exact h.staffed q hq
  linked m q := by
    rw [hslot, hpos]
    split
    · rename_i hq; subst hq; exact hlink m (h.linked m q)
    · exact h.linked m q
  ready := hready
  listed := by simpa only [ListFollows, hslot, hlist] using h.listed
  supervised := by rw [k.callTicks, hsup]; exact h.supervised.mono fun a => ⟨a, by simp⟩
  supervision_day := by rw [hsup, hact]; exact h.supervision_day

end
end Sys2Proof.Machine
end

section
/-! PROOFS. Slot records and moves. -/

namespace Sys2Proof.Machine

open Sys2Proof.Safety

/-! The slot records the moves of the Slot Controller make. -/

section
variable {due : Prop} {now : Tick} {sl : Slot}

theorem slotFits_empty (due : Prop) (now : Tick) : SlotFits due now Slot.empty :=
  ⟨by simp [SlotFieldsFit, Slot.empty], by simp [HomeFits, Slot.empty], by simp [Disp.isSeated, Slot.empty],
    deadlineAhead_none due now⟩

theorem slotFits_offered (due : Prop) (now : Tick) (g : GroupNo) : SlotFits due now (Slot.offered g) :=
  ⟨by simp [SlotFieldsFit, Slot.offered, Slot.empty], by simp [HomeFits, Slot.offered, Slot.empty],
    by simp [Disp.isSeated, Slot.offered], deadlineAhead_none due now⟩

theorem SlotFits.presentedAt {due' : Prop} (h : SlotFits due now sl) (hw : sl.disp.isWaiting = true) (p : PosNo)
    (breakIn : Bool) {d : Option Tick} (hd : DeadlineAhead due' now d) :
    SlotFits due' now (sl.presentedAt p breakIn d) := by
  have hq := h.home.1
  have hr := h.home.2.2
  refine ⟨by simp [SlotFieldsFit, Slot.presentedAt], ?_, by simp [Slot.presentedAt], hd⟩
  cases hdisp : sl.disp <;> simp_all [HomeFits, Slot.presentedAt, Disp.isWaiting]

/-- A PRESENTED slot returns to QUEUED with no home or to RECALL at its home (R3, R88). -/
theorem SlotFits.returned {due' : Prop} (h : SlotFits due now sl) (hp : sl.disp = .presented) :
    SlotFits due' now sl.returned ∧ sl.returned.disp.isSeated = false ∧ sl.returned.disp.isListed = true := by
  have hkind := h.fields.2.2.1.2 hp
  have hhome := h.home.2.1 hp
  unfold Slot.returned
  split
  · rename_i hr
    exact ⟨⟨by simp [SlotFieldsFit], by simp [HomeFits, hhome.2 hr], by simp [Disp.isSeated],
      deadlineAhead_none due' now⟩, rfl, rfl⟩
  · rename_i hr
    have hq : sl.returnKind = some .queued := by
      rcases hk : sl.returnKind with _ | k
      · simp [hk] at hkind
      · cases k <;> simp_all
    exact ⟨⟨by simp [SlotFieldsFit], by simp [HomeFits, hhome.1 hq], by simp [Disp.isSeated],
      deadlineAhead_none due' now⟩, rfl, rfl⟩

theorem slotFits_answeredAt (due : Prop) (now : Tick) (sl : Slot) (p : PosNo) (c : Class) :
    SlotFits due now (sl.answeredAt p c) :=
  ⟨by simp [SlotFieldsFit, Slot.answeredAt], by simp [HomeFits, Slot.answeredAt], by simp [Slot.answeredAt],
    deadlineAhead_none due now⟩

theorem SlotFits.setAside {due' : Prop} (h : SlotFits due now sl) (ht : sl.disp = .talking) :
    SlotFits due' now sl.setAside := by
  have hh := h.home.2.2 (.inl ht)
  exact ⟨by simp [SlotFieldsFit, Slot.setAside], by simpa [HomeFits, Slot.setAside] using hh,
    by simpa [Slot.setAside, Disp.isSeated, hh.2] using hh.1, deadlineAhead_none due' now⟩

theorem SlotFits.broughtBack {due' : Prop} (h : SlotFits due now sl) (ht : sl.disp = .split) :
    SlotFits due' now sl.broughtBack := by
  have hh := h.home.2.2 (.inr (.inl ht))
  exact ⟨by simp [SlotFieldsFit, Slot.broughtBack], by simpa [HomeFits, Slot.broughtBack] using hh,
    by simpa [Slot.broughtBack, Disp.isSeated, hh.2] using hh.1, deadlineAhead_none due' now⟩

/-- A call with a home goes away from the positions (R7). -/
theorem slotFits_away {due' : Prop} {d : Disp} {dl : Option Tick} (hh : sl.home.isSome)
    (hd : d = .held ∨ d = .extended ∨ d = .camped) (hdl : DeadlineAhead due' now dl) :
    SlotFits due' now (sl.away d dl) := by
  rcases hd with rfl | rfl | rfl <;>
    exact ⟨by simp [SlotFieldsFit, Slot.away], by simpa [HomeFits, Slot.away] using hh,
      by simp [Slot.away, Disp.isSeated], hdl⟩

/-- A call with a home comes back to it as RECALL (R12). -/
theorem slotFits_recalled {due' : Prop} (hh : sl.home.isSome) (limit : BitVec 3) :
    SlotFits due' now (sl.recalled limit) :=
  ⟨by simp [SlotFieldsFit, Slot.recalled], by simpa [HomeFits, Slot.recalled] using hh,
    by simp [Slot.recalled, Disp.isSeated], deadlineAhead_none due' now⟩

/-- The second tick changes no field but the elapsed count of a slot in use (R10, R59). -/
theorem SlotFits.elapsed (h : SlotFits due now sl) (hu : sl.disp ≠ .free) (e : BitVec 12) :
    SlotFits due now { sl with elapsed := e } :=
  ⟨⟨fun a => absurd a hu, h.fields.2⟩, h.home, h.placed, h.deadline⟩

end

/-! One slot and one position moved. -/

/-- `t` is `s` with the record `v` of slot `n`, the record `x` of position `p`, and lists, counters and causes that may
differ. -/
structure Moved (s t : State) (n : SlotNo) (v : Slot) (p : PosNo) (x : Position) : Prop where
  kept : Kept s t
  slot : ∀ m, t.slot m = if m = n then v else s.slot m
  pos : ∀ q, t.pos q = if q = p then x else s.pos q
  supervision : t.supervision = s.supervision
  actual : t.actual = s.actual

theorem moved_records (s : State) (n : SlotNo) (v : Slot) (p : PosNo) (x : Position) (rl : List PosNo)
    (al : List Listed) (ct : Vector Counters 32) (la : BitVec 8) :
    Moved s { (s.setSlot n v).setPos p x with readyList := rl, answerList := al, counters := ct, latched := la }
      n v p x :=
  ⟨by constructor <;> rfl, fun m => State.slot_setSlot s n m v, fun q => State.pos_setPos s p q x, rfl, rfl⟩

section
variable {due : TimerOwner → Prop} {s t : State} {n : SlotNo} {p : PosNo} {v : Slot} {x : Position}

theorem moved_setSlot_setPos (s : State) (n : SlotNo) (v : Slot) (p : PosNo) (x : Position) :
    Moved s ((s.setSlot n v).setPos p x) n v p x :=
  moved_records s n v p x s.readyList s.answerList s.counters s.latched

/-- `CallsFit.change` over a move. -/
theorem CallsFit.move (h : CallsFit due (some p) s) (m : Moved s t n v p x) (hold : SeatedOnlyAt p (s.slot n))
    (hnew : SeatedOnlyAt p v) (hv : SlotFits False s.callTicks v)
    (hx : PositionFits (due (.position p)) (s.fitted ≤ p.val) s.callTicks x) (hn : Linked n v p x)
    (hrest : ∀ m, m ≠ n → Linked m (s.slot m) p (s.pos p) → Linked m (s.slot m) p x)
    (hready : ReadyListExact t) (hlisted : ListFollows t) : CallsFit (withoutDue due (.slot n)) (some p) t :=
  h.change m.kept m.slot m.pos hold hnew hv hx hn hrest hready hlisted m.supervision m.actual

theorem seatedOnlyAt_unseated (h : v.disp.isSeated = false) : SeatedOnlyAt p v := fun k => by simp [h] at k

theorem SeatedOnlyAt.of_position (h : v.position = some p) : SeatedOnlyAt p v := fun _ => h

/-- A slot no position holds moves to another such record; no position is touched. -/
theorem CallsFit.moveUnseated (h : CallsFit due none s) (m : Moved s t n v 0 (s.pos 0))
    (hold : (s.slot n).disp.isSeated = false) (hnew : v.disp.isSeated = false) (hv : SlotFits False s.callTicks v)
    (hready : t.readyList = s.readyList) (hlisted : ListFollows t) : CallsFit (withoutDue due (.slot n)) none t := by
  obtain ⟨h1, h2, h3⟩ := h.unheld hold 0
  have := (h.loosen 0).move m (seatedOnlyAt_unseated hold) (seatedOnlyAt_unseated hnew) hv (h.positions 0)
    (linked_unseated hnew h1 h2 h3)    (fun _ _ k => k) (readyListExact_kept h.ready m.pos hready Iff.rfl) hlisted
  refine this.tighten ?_
  rw [m.pos, if_pos rfl]
  exact h.staffed 0 (by simp)

end
end Sys2Proof.Machine
end

section
/-! PROOFS. Presentations that begin and end. -/

namespace Sys2Proof.Machine

open Sys2Proof.Safety

section
variable {due : TimerOwner → Prop} {s t : State} {n : SlotNo} {p : PosNo} {v : Slot} {x : Position}

/-! A position loses what it presents. -/

theorem PositionFits.unpresented {d u : Prop} {now : Tick} {q : Position} (h : PositionFits d u now q) :
    PositionFits d u now { q with presented := none } := by
  refine ⟨?_, h.stack_nodup, fun hu => by rw [h.unfitted hu]; rfl, h.deadline⟩
  obtain ⟨h1, h2, h3, h4⟩ := h.fields
  exact ⟨h1, fun _ _ => rfl, h3, h4⟩

theorem Linked.unpresented {m : SlotNo} {sl : Slot} {q : Position} (h : Linked m sl p q) (hm : q.presented ≠ some m) :
    Linked m sl p { q with presented := none } :=
  { h with presented := iff_of_false (h.presented.not.2 hm) (by simp) }

/-- What position `p` presents leaves it for a record that no position holds (R20, R34, R88). -/
theorem CallsFit.presentedLeaves (h : CallsFit due (some p) s) (hp : (s.pos p).presented = some n)
    (m : Moved s t n v p { s.pos p with presented := none }) (hv : SlotFits False s.callTicks v)
    (hu : v.disp.isSeated = false) (hready : t.readyList = s.readyList) (hlisted : ListFollows t) :
    CallsFit (withoutDue due (.slot n)) (some p) t := by
  have hl := h.linked n p
  obtain ⟨hdisp, hpos⟩ := hl.presented.2 hp
  refine h.move m (.of_position hpos) (seatedOnlyAt_unseated hu) hv (h.positions p).unpresented
    (linked_unseated hu ?_ (by simp) ?_) (fun a ha k => k.unpresented (by simpa [hp] using Ne.symm ha))
    (readyListExact_kept h.ready m.pos hready Iff.rfl) hlisted
  · exact fun k => by simpa [hdisp] using hl.talking.2 k
  · exact fun k => by simpa [hdisp] using hl.split.2 k

theorem moved_withdraw (hp : (s.pos p).presented = some n) :
    Moved s (s.withdraw p) n (s.slot n).returned p { s.pos p with presented := none } := by
  rw [State.withdraw_some hp]
  exact moved_setSlot_setPos ..

/-- A withdrawal takes the deadline of the presentation with it (R88). -/
theorem CallsFit.withdraw_without (h : CallsFit due (some p) s) (hp : (s.pos p).presented = some n) :
    CallsFit (withoutDue due (.slot n)) (some p) (s.withdraw p) := by
  obtain ⟨hdisp, -⟩ := (h.linked n p).presented.2 hp
  obtain ⟨hfit, hseat, hlist⟩ := (h.slots n).returned (due' := False) hdisp
  have m := moved_withdraw hp
  have hal : (s.withdraw p).answerList = s.answerList := by rw [State.withdraw_some hp]; rfl
  exact h.presentedLeaves hp m hfit hseat (State.readyList_withdraw s p)
    (listFollows_kept h.listed m.slot hal (by rw [hlist, hdisp]; rfl))

theorem CallsFit.withdraw (h : CallsFit due (some p) s) : CallsFit due (some p) (s.withdraw p) := by
  cases hp : (s.pos p).presented with
  | none => rwa [State.withdraw_none hp]
  | some n => exact (h.withdraw_without hp).of_without

/-- Of an ENGAGED position a withdrawal takes the offer alone. -/
theorem CallsFit.withdraw_engaged (h : CallsFit due none s) (he : (s.pos p).state = .engaged) :
    CallsFit due none (s.withdraw p) := by
  refine (h.loosen p).withdraw.tighten ?_
  rw [State.pos_withdraw, if_pos rfl]
  exact ⟨fun _ => (h.staffed p (by simp)).1 he, fun k => by simp [he] at k⟩

/-! A position presents a call. -/

/-- A waiting call is presented by position `p`, ordinarily or as an offer (R84, R85). -/
theorem CallsFit.present {b : Bool} (h : CallsFit due (some p) s) (hw : (s.slot n).disp.isWaiting = true)
    (hnone : (s.pos p).presented = none)
    (m : Moved s t n ((s.slot n).presentedAt p b (s.arm s.settings.present)) p x)
    (hx : PositionFits (due (.position p)) (s.fitted ≤ p.val) s.callTicks x) (hpres : x.presented = some n)
    (hsame : ∀ a, Linked a (s.slot a) p (s.pos p) → Linked a (s.slot a) p { x with presented := none })
    (hready : ReadyListExact t) (hlist : t.answerList = s.answerList) : CallsFit due (some p) t := by
  have hseat : (s.slot n).disp.isSeated = false := by
    cases hd : (s.slot n).disp <;> simp_all [Disp.isWaiting, Disp.isSeated]
  have hlisted : (s.slot n).disp.isListed = true := by
    cases hd : (s.slot n).disp <;> simp_all [Disp.isWaiting, Disp.isListed]
  have hl := hsame n (h.linked n p)
  obtain ⟨h1, -, h3⟩ := h.unheld hseat p
  refine (h.move m (seatedOnlyAt_unseated hseat) (.of_position rfl)
    ((h.slots n).presentedAt hw p b (deadlineAhead_armAt _ _ _)) hx ?_ (fun a ha k => ?_) hready
    (listFollows_kept h.listed m.slot hlist (by rw [hlisted]; rfl))).of_without
  · have ht := hl.talking.not.1 fun k => by simp [k.1, Disp.isSeated] at hseat
    have hs := hl.split.not.1 fun k => by simp [k.1, Disp.isSeated] at hseat
    exact ⟨iff_of_false (fun k => by simp [Slot.presentedAt] at k) ht, iff_of_true ⟨rfl, rfl⟩ hpres,
      iff_of_false (fun k => by simp [Slot.presentedAt] at k) hs, fun a b => absurd ⟨a, b⟩ ht,
      fun e he k => absurd ⟨e, he, k⟩ hs⟩
  · have hk := hsame a k
    exact { hk with
      presented := iff_of_false (k.presented.not.2 (by simp [hnone])) (by simpa [hpres] using Ne.symm ha) }

end
end Sys2Proof.Machine
end

section
/-! PROOFS. Positions without calls, and the arbiter. -/

namespace Sys2Proof.Machine

open Sys2Proof.Safety

section
variable {due : TimerOwner → Prop} {s t : State} {n : SlotNo} {p : PosNo} {x : Position}

/-! A position without calls. -/

/-- The position holds no call. -/
structure Unoccupied (q : Position) : Prop where
  talking : q.talking = none
  presented : q.presented = none
  stack : q.stack = []

/-- Two positions without calls agree with the same slot records. -/
theorem Linked.unoccupied {sl : Slot} {q q' : Position} (h : Linked n sl p q) (hq : Unoccupied q)
    (hq' : Unoccupied q') : Linked n sl p q' := by
  have h1 := h.talking.not.2 (by simp [hq.talking])
  have h2 := h.presented.not.2 (by simp [hq.presented])
  have h3 := h.split.not.2 (by simp [hq.stack])
  exact ⟨iff_of_false h1 (by simp [hq'.talking]), iff_of_false h2 (by simp [hq'.presented]),
    iff_of_false h3 (by simp [hq'.stack]), by simp [hq'.talking], by simp [hq'.stack]⟩

theorem unoccupied_bare (q : Position) (st : PosState) : Unoccupied (q.bare st) := ⟨rfl, rfl, rfl⟩

/-- A CLOSED, READY or WRAPUP position holds no call (R75). -/
theorem PositionFits.unoccupied {d u : Prop} {now : Tick} {q : Position} (h : PositionFits d u now q)
    (he : q.state ≠ .engaged) (hp : q.state ≠ .presenting) : Unoccupied q := by
  obtain ⟨h1, h2, -, -⟩ := h.fields
  obtain ⟨ht, -, hs, -⟩ := h1 he
  exact ⟨ht, h2 he hp, hs⟩

/-- A PRESENTING position holds nothing but its presentation (R75). -/
theorem CallsFit.unoccupied_withdraw {loose : Option PosNo} (h : CallsFit due loose s)
    (he : (s.pos p).state ≠ .engaged) : Unoccupied ((s.withdraw p).pos p) := by
  obtain ⟨ht, -, hs, -⟩ := (h.positions p).fields.1 he
  rw [State.pos_withdraw, if_pos rfl]
  exact ⟨ht, rfl, hs⟩

theorem positionFits_bare {u : Prop} (now : Tick) (q : Position) {st : PosState} (hu : u → q.bare st = Position.empty) :
    PositionFits False u now (q.bare st) :=
  ⟨by simp [PositionFieldsFit, Position.bare, Position.empty], by simp [Position.bare, Position.empty], hu,
    deadlineAhead_none _ _⟩

/-- A position without calls becomes CLOSED, READY or WRAPUP. -/
theorem CallsFit.becomes (h : CallsFit due (some p) s) (hu : Unoccupied (s.pos p)) (k : Kept s t)
    (hslot : ∀ m, t.slot m = s.slot m) (hpos : ∀ q, t.pos q = if q = p then x else s.pos q)
    (hx : PositionFits False (s.fitted ≤ p.val) s.callTicks x) (hxu : Unoccupied x)
    (hstate : x.state ≠ .engaged ∧ x.state ≠ .presenting) (hready : ReadyListExact t)
    (hlist : t.answerList = s.answerList) (hsup : t.supervision = s.supervision) (hact : t.actual = s.actual) :
    CallsFit (withoutDue due (.position p)) none t := by
  refine (h.changePos k hslot hpos hx (fun m l => l.unoccupied hu hxu) hready hlist hsup hact).tighten ?_
  rw [hpos, if_pos rfl]
  exact ⟨fun e => absurd e hstate.1, fun e => absurd e hstate.2⟩

/-- READY at the end of the ready list; a wrap-up deadline is gone (R82, R94). -/
theorem CallsFit.becomeReady_without (h : CallsFit due (some p) s) (hu : Unoccupied (s.pos p))
    (hf : p.val < s.fitted) : CallsFit (withoutDue due (.position p)) none (s.becomeReady p) :=
  h.becomes hu (kept_becomeReady s p) (fun _ => rfl) (s.pos_becomeReady p)
    (positionFits_bare _ _ fun hn => absurd hn (by omega)) (unoccupied_bare _ _)
    ⟨by simp [Position.bare], by simp [Position.bare]⟩ (readyListExact_appended h.ready (s.pos_becomeReady p) rfl rfl)
    rfl rfl rfl

theorem CallsFit.becomeReady (h : CallsFit due (some p) s) (hu : Unoccupied (s.pos p)) (hf : p.val < s.fitted) :
    CallsFit due none (s.becomeReady p) := (h.becomeReady_without hu hf).of_without

theorem CallsFit.becomeClosed (h : CallsFit due (some p) s) (hu : Unoccupied (s.pos p)) :
    CallsFit due none (s.becomeClosed p) :=
  (h.becomes hu (kept_becomeClosed s p) (fun _ => rfl) (s.pos_becomeClosed p)
    (positionFits_bare _ _ fun hn => by rw [(h.positions p).unfitted hn]; rfl) (unoccupied_bare _ _)
    ⟨by simp [Position.bare], by simp [Position.bare]⟩
    (readyListExact_removed h.ready (s.pos_becomeClosed p) rfl (by simp [Position.bare])) rfl rfl rfl).of_without

/-- WRAPUP with the guard armed now (R43). -/
theorem CallsFit.becomeWrapup (h : CallsFit due (some p) s) (hu : Unoccupied (s.pos p)) (hf : p.val < s.fitted) :
    CallsFit due none (s.becomeWrapup p) :=
  (h.becomes hu (kept_becomeWrapup s p) (fun _ => rfl) (s.pos_becomeWrapup p)
    ⟨by simp [PositionFieldsFit, Position.bare, Position.empty], by simp [Position.bare, Position.empty],
      fun hn => absurd hn (by omega), deadlineAhead_armAt _ _ _⟩ ⟨rfl, rfl, rfl⟩
    ⟨by simp [Position.bare], by simp [Position.bare]⟩
    (readyListExact_removed h.ready (s.pos_becomeWrapup p) rfl (by simp [Position.bare])) rfl rfl rfl).of_without

/-! The Presentation Arbiter (R83 to R86). -/

theorem CallsFit.presentTo (h : CallsFit due none s) (hw : (s.slot n).disp.isWaiting = true)
    (hr : (s.pos p).state = .ready) : CallsFit due none (s.presentTo n p) := by
  have hun := (h.positions p).unoccupied (by simp [hr]) (by simp [hr])
  have hf := fits_ne_closed_fitted h (p := p) (by simp [hr])
  have m : Moved s (s.presentTo n p) n ((s.slot n).presentedAt p false (s.arm s.settings.present)) p
      { (s.pos p).bare .presenting with presented := some n } :=
    moved_records s n _ p _ (withoutPos s.readyList p) s.answerList s.counters s.latched
  refine ((h.loosen p).present hw hun.presented m ⟨?_, ?_, fun hn => absurd hn (by omega), deadlineAhead_none _ _⟩ rfl
    (fun a l => l.unoccupied hun (unoccupied_bare _ _))
    (readyListExact_removed h.ready m.pos rfl (by simp [Position.bare])) rfl).tighten ?_
  · simp [PositionFieldsFit, Position.bare, Position.empty]
  · simp [Position.bare, Position.empty]
  · rw [m.pos, if_pos rfl]; exact ⟨fun k => by simp [Position.bare] at k, fun _ => rfl⟩

theorem CallsFit.offerTo (h : CallsFit due none s) (hw : (s.slot n).disp.isWaiting = true)
    (he : (s.pos p).state = .engaged) (hnone : (s.pos p).presented = none) : CallsFit due none (s.offerTo n p) := by
  have hf := fits_ne_closed_fitted h (p := p) (by simp [he])
  have hp := h.positions p
  obtain ⟨-, -, h3, h4⟩ := hp.fields
  have m : Moved s (s.offerTo n p) n ((s.slot n).presentedAt p true (s.arm s.settings.present)) p
      { s.pos p with presented := some n } := moved_setSlot_setPos ..
  refine ((h.loosen p).present hw hnone m
    ⟨⟨fun k => absurd he k, fun k => absurd he k, h3, h4⟩, hp.stack_nodup, fun hn => absurd hn (by omega), hp.deadline⟩
    rfl (fun a l => l.unpresented (by simp [hnone])) (readyListExact_kept h.ready m.pos rfl Iff.rfl) rfl).tighten ?_
  rw [m.pos, if_pos rfl]
  exact ⟨fun _ => (h.staffed p (by simp)).1 he, fun _ => rfl⟩

theorem bestOf_mem {l : List Listed} {e : Listed} (h : bestOf l = some e) : e ∈ l := by
  induction l generalizing e with
  | nil => simp [bestOf] at h
  | cons a l ih =>
    unfold bestOf at h
    split at h
    · simp_all
    · rename_i b hb
      split at h
      · exact List.mem_cons_of_mem _ (ih (hb.trans h))
      · simp_all

/-- The best candidate waits (R57, R64). -/
theorem bestCandidate_waits {e : Listed} (h : s.bestCandidate = some e) : (s.slot e.slot).disp.isWaiting = true := by
  unfold State.bestCandidate at h
  split at h
  · exact (List.mem_filter.1 (bestOf_mem h)).2
  · simp at h

theorem bestAt_waits {c : Class} {e : Listed} (h : s.bestAt c = some e) : (s.slot e.slot).disp.isWaiting = true := by
  unfold State.bestAt at h
  split at h
  · exact (List.mem_filter.1 (List.mem_filter.1 (bestOf_mem h)).1).2
  · simp at h

/-- An ordinary presentation goes to a READY position (R84). -/
theorem receiver_ready {first : PosNo} (hr : (s.pos first).state = .ready) :
    (s.pos (s.receiver n first)).state = .ready := by
  unfold State.receiver
  split
  · split
    · rename_i h; simpa [State.isReady] using h
    · exact hr
  · exact hr

theorem CallsFit.presentAll (h : CallsFit due none s) (k : Nat) : CallsFit due none (State.presentAll k s) := by
  induction k generalizing s with
  | zero => exact h
  | succ k ih =>
    unfold State.presentAll
    split
    · rename_i e first rest he hl
      have hr : (s.pos first).state = .ready := (h.ready.2 first).1 (by simp [hl])
      exact ih (h.presentTo (bestCandidate_waits he) (receiver_ready hr))
    · exact h

/-- A position that qualifies for an offer is ENGAGED and has none (R85). -/
theorem qualifying_some {c : Class} (h : s.qualifying p = some c) :
    (s.pos p).state = .engaged ∧ (s.pos p).presented = none := by
  unfold State.qualifying at h
  dsimp only at h
  split at h
  · rename_i hc
    simp only [State.isEngaged, Bool.and_eq_true, decide_eq_true_eq, Option.isNone_iff_eq_none] at hc
    exact ⟨hc.1.1.1.2, hc.1.1.2⟩
  · simp at h

theorem lowestQualifying_some {l : List PosNo} {c : Class} (h : s.lowestQualifying l = some (p, c)) :
    s.qualifying p = some c := by
  induction l generalizing p c with
  | nil => simp [State.lowestQualifying] at h
  | cons a l ih =>
    unfold State.lowestQualifying at h
    split at h
    · exact ih h
    · simp_all
    · rename_i hq hrest
      split at h
      · exact ih (hrest.trans h)
      · simp_all

theorem CallsFit.offerAll (h : CallsFit due none s) (k : Nat) : CallsFit due none (State.offerAll k s) := by
  induction k generalizing s with
  | zero => exact h
  | succ k ih =>
    unfold State.offerAll
    split
    · split
      · rename_i p c hq
        split
        · rename_i e he
          obtain ⟨heng, hnone⟩ := qualifying_some (lowestQualifying_some hq)
          exact ih (h.offerTo (bestAt_waits he) heng hnone)
        · exact h
      · exact h
    · exact h

theorem CallsFit.arbitrate (h : CallsFit due none s) : CallsFit due none s.arbitrate := (h.presentAll _).offerAll _

theorem CallsFit.arbitrateAfter (h : CallsFit due none s) (p : PosNo) (old : Position) :
    CallsFit due none (s.arbitrateAfter p old) := by
  unfold State.arbitrateAfter
  split
  · exact h.arbitrate
  · exact h

end
end Sys2Proof.Machine
end

section
/-! PROOFS. Talking and stacked calls. -/

namespace Sys2Proof.Machine

open Sys2Proof.Safety

section
variable {due : TimerOwner → Prop} {s t : State} {n : SlotNo} {p : PosNo} {v : Slot} {x : Position}

/-! Talking and stacked calls. -/

/-- A position record that holds the same of slot `m` agrees with the same slot record. -/
theorem Linked.same {m : SlotNo} {sl : Slot} {q : Position} (h : Linked m sl p q)
    (ht : (x.state = .engaged ∧ x.talking = some m) ↔ (q.state = .engaged ∧ q.talking = some m))
    (hp : x.presented = some m ↔ q.presented = some m) (hs : ∀ e, e.slot = m → (e ∈ x.stack ↔ e ∈ q.stack))
    (hthr : x.talking = some m → x.threshold = q.threshold) : Linked m sl p x where
  talking := h.talking.trans ht.symm
  presented := h.presented.trans hp.symm
  split := h.split.trans ⟨fun ⟨e, he, k⟩ => ⟨e, (hs e k).2 he, k⟩, fun ⟨e, he, k⟩ => ⟨e, (hs e k).1 he, k⟩⟩
  threshold a b := by
    obtain ⟨a', b'⟩ := ht.1 ⟨a, b⟩
    exact hthr b ▸ h.threshold a' b'
  saved e he k := h.saved e ((hs e k).1 he) k

/-- An ENGAGED position whose records but talking call, threshold, offer and marks are in order. -/
theorem positionFits_engaged {d u : Prop} {now : Tick} (he : x.state = .engaged) (hw : x.wrapDeadline = none)
    (hlen : x.stack.length ≤ Config.stackDepth) (hnd : (x.stack.map StackEntry.slot).Nodup) (hu : ¬u) :
    PositionFits d u now x :=
  ⟨⟨fun k => absurd he k, fun k => absurd he k, fun _ => hw, hlen⟩, hnd, fun k => absurd k hu,
    hw ▸ deadlineAhead_none _ _⟩

/-- The talking call of an ENGAGED position leaves it for a record that no position holds (R21, R37, R40, R41). -/
theorem CallsFit.talkingLeaves (h : CallsFit due (some p) s) (he : (s.pos p).state = .engaged)
    (ht : (s.pos p).talking = some n) (m : Moved s t n v p { s.pos p with talking := none })
    (hv : SlotFits False s.callTicks v) (hu : v.disp.isSeated = false) (hready : t.readyList = s.readyList)
    (hlisted : ListFollows t) : CallsFit due (some p) t := by
  have hl := h.linked n p
  obtain ⟨hdisp, hpos⟩ := hl.talking.2 ⟨he, ht⟩
  have hp := h.positions p
  have hf := fits_ne_closed_fitted h (p := p) (by simp [he])
  obtain ⟨-, -, hw, hlen⟩ := hp.fields
  refine (h.move m (.of_position hpos) (seatedOnlyAt_unseated hu) hv
    (positionFits_engaged he (hw (by simp [he])) hlen hp.stack_nodup (by omega)) (linked_unseated hu (by simp) ?_ ?_)
    (fun a ha k => k.same ?_ Iff.rfl (fun _ _ => Iff.rfl) (by simp))
    (readyListExact_kept h.ready m.pos hready Iff.rfl) hlisted).of_without
  · exact fun k => by simpa [hdisp] using hl.presented.2 k
  · exact fun k => by simpa [hdisp] using hl.split.2 k
  · simpa [ht] using fun _ e => ha e.symm

/-- A stacked call leaves the stack for a record that no position holds (R22). -/
theorem CallsFit.splitLeaves (h : CallsFit due (some p) s)
    (hin : (s.slot n).disp = .split ∧ (s.slot n).position = some p)
    (m : Moved s t n v p { s.pos p with stack := dropEntry (s.pos p).stack n }) (hv : SlotFits False s.callTicks v)
    (hu : v.disp.isSeated = false) (hready : t.readyList = s.readyList) (hlisted : ListFollows t) :
    CallsFit due (some p) t := by
  have hl := h.linked n p
  have hp := h.positions p
  have hmem : ∀ e, e ∈ dropEntry (s.pos p).stack n ↔ e ∈ (s.pos p).stack ∧ e.slot ≠ n := by simp [dropEntry]
  have hsub : (dropEntry (s.pos p).stack n).Sublist (s.pos p).stack := List.filter_sublist
  obtain ⟨h1, h2, h3, h4⟩ := hp.fields
  have hx : PositionFits (due (.position p)) (s.fitted ≤ p.val) s.callTicks
      { s.pos p with stack := dropEntry (s.pos p).stack n } :=
    ⟨⟨fun k => ⟨(h1 k).1, (h1 k).2.1, by simp [(h1 k).2.2.1, dropEntry], (h1 k).2.2.2⟩, h2, h3,
      hsub.length_le.trans h4⟩, hp.stack_nodup.sublist (hsub.map _), fun k => by rw [hp.unfitted k]; rfl, hp.deadline⟩
  refine (h.move m (.of_position hin.2) (seatedOnlyAt_unseated hu) hv hx (linked_unseated hu ?_ ?_ ?_)
    (fun a ha k => k.same Iff.rfl Iff.rfl (fun e he => ?_) (fun _ => rfl))
    (readyListExact_kept h.ready m.pos hready Iff.rfl) hlisted).of_without
  · exact fun k => by simpa [hin.1] using hl.talking.2 k
  · exact fun k => by simpa [hin.1] using hl.presented.2 k
  · rintro ⟨e, he, k⟩; exact ((hmem e).1 he).2 k
  · simp [hmem, he, ha]

/-- A call that `p` alone may hold becomes its talking call (R35, R44). -/
theorem CallsFit.talkingEnters (h : CallsFit due (some p) s) (m : Moved s t n v p x)
    (hold : SeatedOnlyAt p (s.slot n)) (hnone : (s.pos p).talking = none) (hv : SlotFits False s.callTicks v)
    (hvt : v.disp = .talking ∧ v.position = some p)
    (hx : PositionFits (due (.position p)) (s.fitted ≤ p.val) s.callTicks x)
    (hxt : x.state = .engaged ∧ x.talking = some n) (hpres : x.presented = (s.pos p).presented)
    (hpn : x.presented ≠ some n) (hstack : ∀ e, e.slot ≠ n → (e ∈ x.stack ↔ e ∈ (s.pos p).stack))
    (hsn : ∀ e ∈ x.stack, e.slot ≠ n) (hthr : ThresholdOf v.savedClass x.threshold) (hready : ReadyListExact t)
    (hlisted : ListFollows t) : CallsFit due none t := by
  have hn : Linked n v p x :=
    ⟨iff_of_true hvt hxt, iff_of_false (by simp [hvt.1]) hpn,
      iff_of_false (by simp [hvt.1]) (fun ⟨e, he, k⟩ => hsn e he k), fun _ _ => hthr,
      fun e he k => absurd k (hsn e he)⟩
  refine (h.move m hold (.of_position hvt.2) hv hx hn (fun a ha k => k.same ?_ (by rw [hpres])
    (fun e he => hstack e (by rwa [he])) ?_) hready hlisted).of_without.tighten ?_
  · simpa [hxt, hnone] using Ne.symm ha
  · simpa [hxt] using fun e => absurd e.symm ha
  · obtain ⟨c, -, hc⟩ := hthr
    rw [m.pos, if_pos rfl]
    exact ⟨fun _ => ⟨by simp [hxt], by simp [hc]⟩, fun k => by simp [hxt] at k⟩

/-- A call that `p` alone may hold, and neither presents nor has stacked, goes on top of its stack (R33, R39). -/
theorem CallsFit.splitEnters {c : Class} {q : Position} {talks : Option SlotNo} (h : CallsFit due (some p) s)
    (hq : s.pos p = q) (m : Moved s t n v p { q with talking := talks, stack := ⟨n, c⟩ :: q.stack })
    (hold : SeatedOnlyAt p (s.slot n)) (hdisp : (s.slot n).disp ≠ .split ∧ (s.slot n).disp ≠ .presented)
    (hv : SlotFits False s.callTicks v) (hvs : v.disp = .split ∧ v.position = some p) (he : q.state = .engaged)
    (hroom : q.stack.length < Config.stackDepth) (htn : talks ≠ some n)
    (ht : ∀ a, a ≠ n → (talks = some a ↔ q.talking = some a)) (hthr : ThresholdOf v.savedClass (some c))
    (hready : t.readyList = s.readyList) (hlisted : v.disp.isListed = (s.slot n).disp.isListed)
    (hlist : t.answerList = s.answerList) : CallsFit due (some p) t := by
  subst hq
  have hl := h.linked n p
  have hp := h.positions p
  have hf := fits_ne_closed_fitted h (p := p) (by simp [he])
  have hnew : ∀ e ∈ (s.pos p).stack, e.slot ≠ n := fun e hin k => hdisp.1 (hl.split.2 ⟨e, hin, k⟩).1
  have hx : PositionFits (due (.position p)) (s.fitted ≤ p.val) s.callTicks
      { s.pos p with talking := talks, stack := ⟨n, c⟩ :: (s.pos p).stack } := by
    refine positionFits_engaged he (hp.fields.2.2.1 (by simp [he])) hroom ?_ (by omega)
    simp only [List.map_cons, List.nodup_cons]
    exact ⟨fun k => by obtain ⟨e, hin, hk⟩ := List.mem_map.1 k; exact hnew e hin hk, hp.stack_nodup⟩
  have hn : Linked n v p { s.pos p with talking := talks, stack := ⟨n, c⟩ :: (s.pos p).stack } := by
    refine ⟨iff_of_false (by simp [hvs.1]) (fun k => htn k.2),
      iff_of_false (by simp [hvs.1]) (fun k => hdisp.2 (hl.presented.2 k).1),
      iff_of_true hvs ⟨⟨n, c⟩, by simp, rfl⟩, fun _ k => absurd k htn, fun e hin k => ?_⟩
    rcases List.mem_cons.1 hin with rfl | hin
    · exact hthr
    · exact absurd k (hnew e hin)
  refine (h.move m hold (.of_position hvs.2) hv hx hn (fun a ha k => k.same ?_ Iff.rfl (fun e hin => ?_) (fun _ => rfl))
    (readyListExact_kept h.ready m.pos hready Iff.rfl) (listFollows_kept h.listed m.slot hlist hlisted)).of_without
  · exact and_congr_right fun _ => ht a ha
  · have hne : e ≠ ⟨n, c⟩ := by rintro rfl; exact ha hin.symm
    rw [List.mem_cons, or_iff_right hne]

/-! How a position leaves a call (R38, R43, R44, R47, R48). -/

theorem CallsFit.retest (h : CallsFit due none s) (he : (s.pos p).state = .engaged) :
    CallsFit due none (s.retest p) := by
  unfold State.retest
  split
  · exact h
  · split
    · exact h
    · exact h.withdraw_engaged he

/-- The top of the stack talks again at its saved threshold (R44), before the re-test of an offer. -/
theorem CallsFit.pop {top : StackEntry} {rest : List StackEntry} (h : CallsFit due (some p) s)
    (he : (s.pos p).state = .engaged) (ht : (s.pos p).talking = none) (hst : (s.pos p).stack = top :: rest) :
    CallsFit due none ((s.setSlot top.slot (s.slot top.slot).broughtBack).setPos p
      { s.pos p with talking := some top.slot, threshold := some top.threshold, stack := rest }) := by
  have hl := h.linked top.slot p
  have hp := h.positions p
  have hf := fits_ne_closed_fitted h (p := p) (by simp [he])
  have hmem : top ∈ (s.pos p).stack := by simp [hst]
  obtain ⟨hdisp, hpos⟩ := hl.split.2 ⟨top, hmem, rfl⟩
  obtain ⟨-, -, hw, hlen⟩ := hp.fields
  have hnd := hp.stack_nodup
  rw [hst] at hlen hnd
  rw [List.map_cons, List.nodup_cons] at hnd
  have hrest : ∀ e ∈ rest, e.slot ≠ top.slot := fun e hmem k => hnd.1 (k ▸ List.mem_map_of_mem hmem)
  have m := moved_setSlot_setPos s top.slot (s.slot top.slot).broughtBack p
    { s.pos p with talking := some top.slot, threshold := some top.threshold, stack := rest }
  refine h.talkingEnters m (.of_position hpos) ht ((h.slots _).broughtBack hdisp) ⟨rfl, hpos⟩
    (positionFits_engaged he (hw (by simp [he])) (by simp at hlen ⊢; omega) hnd.2 (by omega)) ⟨he, rfl⟩ rfl ?_ ?_ hrest
    (hl.saved top hmem rfl) (readyListExact_kept h.ready m.pos rfl Iff.rfl)
    (listFollows_kept h.listed m.slot rfl (by rw [hdisp]; rfl))
  · exact fun k => by simpa [hdisp] using hl.presented.2 k
  · intro e hne
    have : e ≠ top := fun k => hne (by rw [k])
    simp [hst, this]

/-- With supervision off the mode may be any (R123). -/
theorem CallsFit.enterNight (h : CallsFit due none s) : CallsFit due none s.enterNight :=
  { h with
    supervised := deadlineAhead_none _ _
    supervision_day := fun k => by simp [State.enterNight, State.latch] at k }

theorem CallsFit.drained (h : CallsFit due none s) : CallsFit due none s.drained := by
  unfold State.drained
  split
  · exact h.enterNight
  · exact h

/-- A position whose talking call has gone and whose stack is empty leaves ENGAGED (R38, R43, R48). -/
theorem CallsFit.leaveEngaged (h : CallsFit due (some p) s) (he : (s.pos p).state = .engaged)
    (ht : (s.pos p).talking = none) (hst : (s.pos p).stack = []) (byHold : Bool) :
    CallsFit due none (s.leaveEngaged p byHold) := by
  have hf := fits_ne_closed_fitted h (p := p) (by simp [he])
  have hw := h.withdraw
  have hfw : p.val < (s.withdraw p).fitted := by rw [State.fitted, (kept_withdraw s p).straps]; exact hf
  have hu : Unoccupied ((s.withdraw p).pos p) := by
    rw [State.pos_withdraw, if_pos rfl]; exact ⟨ht, rfl, hst⟩
  unfold State.leaveEngaged
  dsimp only
  split
  · exact (hw.becomeClosed hu).drained
  · split
    · exact hw.becomeReady hu hfw
    · exact hw.becomeWrapup hu hfw

theorem CallsFit.leaveCall (h : CallsFit due (some p) s) (he : (s.pos p).state = .engaged)
    (ht : (s.pos p).talking = none) (byHold : Bool) : CallsFit due none (s.leaveCall p byHold) := by
  unfold State.leaveCall
  split
  · rename_i top rest hst
    exact (h.pop he ht hst).retest (by rw [State.pos_setPos_same]; exact he)
  · rename_i hst
    exact h.leaveEngaged he ht hst byHold

/-- Position `p` without its talking call, which has gone and is not yet succeeded. -/
def State.vacate (s : State) (p : PosNo) : State := s.setPos p { s.pos p with talking := none }

theorem pos_vacate (s : State) (p : PosNo) : (s.vacate p).pos p = { s.pos p with talking := none } :=
  State.pos_setPos_same ..

theorem becomeReady_vacate (s : State) (p : PosNo) : (s.vacate p).becomeReady p = s.becomeReady p := by
  rw [State.becomeReady, pos_vacate, State.vacate, State.setPos_setPos]; rfl

theorem becomeClosed_vacate (s : State) (p : PosNo) : (s.vacate p).becomeClosed p = s.becomeClosed p := by
  rw [State.becomeClosed, pos_vacate, State.vacate, State.setPos_setPos]; rfl

theorem becomeWrapup_vacate (s : State) (p : PosNo) : (s.vacate p).becomeWrapup p = s.becomeWrapup p := by
  rw [State.becomeWrapup, pos_vacate, State.vacate, State.setPos_setPos]; rfl

theorem withdraw_vacate (s : State) (p : PosNo) : (s.vacate p).withdraw p = (s.withdraw p).vacate p := by
  cases hp : (s.pos p).presented with
  | none => rw [State.withdraw_none hp, State.withdraw_none (by rw [pos_vacate]; exact hp)]
  | some n =>
    rw [State.withdraw_some hp, State.withdraw_some (by rw [pos_vacate]; exact hp), pos_vacate]
    simp only [State.vacate, State.pos_setPos_same, State.setPos_setPos]
    exact State.setPos_setPos (s.returnSlot n) p _ _

theorem popStack_vacate (s : State) (p : PosNo) (top : StackEntry) (rest : List StackEntry) :
    (s.vacate p).popStack p top rest = s.popStack p top rest := by
  rw [State.popStack, pos_vacate, State.vacate, ← State.setSlot_setPos, State.setPos_setPos]; rfl

/-- The record of a talking call that has gone plays no part in how the position leaves it. -/
theorem leaveCall_vacate (s : State) (p : PosNo) (byHold : Bool) :
    (s.vacate p).leaveCall p byHold = s.leaveCall p byHold := by
  unfold State.leaveCall
  rw [pos_vacate]
  split
  · rename_i hst
    rw [popStack_vacate]
    change (s.pos p).stack = _ at hst
    rw [hst]
  · rename_i hst
    change (s.pos p).stack = _ at hst
    rw [hst]
    simp only [State.leaveEngaged, withdraw_vacate, becomeClosed_vacate, becomeReady_vacate, becomeWrapup_vacate,
      pos_vacate]
    rfl

end
end Sys2Proof.Machine
end

section
/-! PROOFS. Line events keep the invariant. -/

namespace Sys2Proof.Machine

open Sys2Proof.Safety

section
variable {due : TimerOwner → Prop} {s t : State} {n : SlotNo} {p : PosNo} {v : Slot} {x : Position}

/-! Calls that no position holds. -/

theorem moved_slot (s : State) (n : SlotNo) (v : Slot) (al : List Listed) (ct : Vector Counters 32) (la : BitVec 8) :
    Moved s { s.setSlot n v with answerList := al, counters := ct, latched := la } n v 0 (s.pos 0) where
  kept := by constructor <;> rfl
  slot m := State.slot_setSlot s n m v
  pos q := by
    split
    · rename_i hq; rw [hq]; rfl
    · rfl
  supervision := rfl
  actual := rfl

/-- A call away from the positions moves to another such record (R25, R26). -/
theorem CallsFit.setSlot_away (h : CallsFit due none s) (hold : (s.slot n).disp.isSeated = false)
    (holdl : (s.slot n).disp.isListed = false) (hv : SlotFits False s.callTicks v) (hnew : v.disp.isSeated = false)
    (hnewl : v.disp.isListed = false) : CallsFit due none (s.setSlot n v) := by
  have m := moved_slot s n v s.answerList s.counters s.latched
  exact (h.moveUnseated m hold hnew hv rfl (listFollows_kept h.listed m.slot rfl (hnewl.trans holdl.symm))).of_without

/-- A call that no position holds goes FREE (R14). -/
theorem CallsFit.freeSlot (h : CallsFit due none s) (hold : (s.slot n).disp.isSeated = false) :
    CallsFit due none (s.freeSlot n) := by
  have m := moved_slot s n Slot.empty (s.answerList.filter fun e => decide (e.slot ≠ n)) s.counters s.latched
  exact (h.moveUnseated m hold rfl (slotFits_empty _ _) rfl (listFollows_unlisted h.listed m.slot rfl rfl)).of_without

/-- A call that waits nowhere joins the answer list (R12, R17, R54). -/
theorem CallsFit.joins (h : CallsFit due none s) (hold : (s.slot n).disp.isSeated = false)
    (holdl : (s.slot n).disp.isListed = false) (hv : SlotFits False s.callTicks v) (hw : v.disp.isWaiting = true)
    (u : Score) (ct : Vector Counters 32) (la : BitVec 8) :
    CallsFit (withoutDue due (.slot n)) none
      { s.setSlot n v with answerList := s.answerList ++ [⟨n, u⟩], counters := ct, latched := la } := by
  have hseat : v.disp.isSeated = false := by cases hd : v.disp <;> simp_all [Disp.isWaiting, Disp.isSeated]
  have hlist : v.disp.isListed = true := by cases hd : v.disp <;> simp_all [Disp.isWaiting, Disp.isListed]
  have m := moved_slot s n v (s.answerList ++ [⟨n, u⟩]) ct la
  exact h.moveUnseated m hold hseat hv rfl (listFollows_joined h.listed m.slot rfl holdl hlist)

/-- A call away from the positions has a home, and no position or list holds it (R3, R5). -/
theorem CallsFit.away_facts {loose : Option PosNo} (h : CallsFit due loose s)
    (hd : (s.slot n).disp = .held ∨ (s.slot n).disp = .extended ∨ (s.slot n).disp = .camped) :
    (s.slot n).home.isSome ∧ (s.slot n).disp.isSeated = false ∧ (s.slot n).disp.isListed = false := by
  have hh := (h.slots n).home.2.2
  rcases hd with hd | hd | hd <;> simp [hd, Disp.isSeated, Disp.isListed] at hh ⊢ <;> exact hh.1

/-- The recall transition; the deadline of the call is gone (R12). -/
theorem CallsFit.recallSlot_without (h : CallsFit due none s)
    (hd : (s.slot n).disp = .held ∨ (s.slot n).disp = .extended ∨ (s.slot n).disp = .camped) :
    CallsFit (withoutDue due (.slot n)) none (s.recallSlot n) := by
  obtain ⟨hh, hseat, hlist⟩ := h.away_facts hd
  rw [recallSlot_eq]
  exact h.joins hseat hlist (slotFits_recalled hh _) rfl _ _ _

/-! Line events (R15 to R28). -/

theorem CallsFit.offerEvent (h : CallsFit due none s) (n : SlotNo) (g : GroupNo) :
    CallsFit due none (s.offerEvent n g).state := by
  unfold State.offerEvent
  split
  · rename_i hd
    split
    · exact h
    · exact (h.joins (by rw [hd]; rfl) (by rw [hd]; rfl) (slotFits_offered _ _ g) rfl _ _ _).of_without.arbitrate
  · exact h

/-- A position that no longer presents a call becomes READY just as it would while presenting it. -/
theorem becomeReady_unpresented (s : State) (p : PosNo) :
    (s.setPos p { s.pos p with presented := none }).becomeReady p = s.becomeReady p := by
  rw [State.becomeReady, State.pos_setPos_same, State.setPos_setPos]; rfl

theorem releasePresenter_presenting (h : (s.pos p).state = .presenting) : s.releasePresenter p = s.becomeReady p := by
  simp [State.releasePresenter, h]

theorem releasePresenter_engaged (h : (s.pos p).state ≠ .presenting) :
    s.releasePresenter p = s.setPos p { s.pos p with presented := none } := by
  unfold State.releasePresenter
  split
  · rename_i k; exact absurd k h
  · rfl

/-- A presented call goes FREE and its position is released (R20, R34). -/
theorem CallsFit.presenterReleased (h : CallsFit due none s) (hp : (s.pos p).presented = some n) :
    CallsFit due none ((s.freeSlot n).releasePresenter p) := by
  have m : Moved s ((s.freeSlot n).setPos p { s.pos p with presented := none }) n Slot.empty p
      { s.pos p with presented := none } :=
    moved_records s n _ p _ s.readyList (s.answerList.filter fun e => decide (e.slot ≠ n)) s.counters s.latched
  have hgone := ((h.loosen p).presentedLeaves hp m (slotFits_empty _ _) rfl rfl
    (listFollows_unlisted h.listed m.slot rfl rfl)).of_without
  have hpos : ((s.freeSlot n).setPos p { s.pos p with presented := none }).pos p =
      { s.pos p with presented := none } := State.pos_setPos_same ..
  have hshape := (h.positions p).fields
  by_cases hst : (s.pos p).state = .presenting
  · obtain ⟨ht, -, hstack, -⟩ := hshape.1 (by simp [hst])
    have hf : p.val < s.fitted := fits_ne_closed_fitted h (p := p) (by simp [hst])
    rw [releasePresenter_presenting (s := s.freeSlot n) hst, ← becomeReady_unpresented]
    exact hgone.becomeReady (by rw [hpos]; exact ⟨ht, rfl, hstack⟩) hf
  · rw [releasePresenter_engaged (s := s.freeSlot n) hst]
    refine hgone.tighten ?_
    rw [hpos]
    exact ⟨fun k => (h.staffed p (by simp)).1 k, fun k => absurd k hst⟩

theorem CallsFit.abandonWaiting (h : CallsFit due none s) (hold : (s.slot n).disp.isSeated = false) :
    CallsFit due none (s.abandonWaiting n) := (h.freeSlot hold).of_callPart rfl

theorem CallsFit.abandonPresented (h : CallsFit due none s) (hd : (s.slot n).disp = .presented) :
    CallsFit due none (s.abandonPresented n) := by
  obtain ⟨p, hp⟩ := Option.isSome_iff_exists.1 ((h.slots n).placed (by rw [hd]; rfl))
  have hrel := h.presenterReleased ((h.linked n p).presented.1 ⟨hd, hp⟩)
  have hpart : ((s.abandonWaiting n).releasePresenter p).callPart = ((s.freeSlot n).releasePresenter p).callPart := by
    by_cases hst : (s.pos p).state = .presenting
    · rw [releasePresenter_presenting (s := s.abandonWaiting n) hst,
        releasePresenter_presenting (s := s.freeSlot n) hst]
      rfl
    · rw [releasePresenter_engaged (s := s.abandonWaiting n) hst, releasePresenter_engaged (s := s.freeSlot n) hst]
      rfl
  simp only [State.abandonPresented, hp]
  exact (hrel.of_callPart hpart).arbitrate

/-- The talking call of `p` is gone FREE or away, and `p` has not yet moved on. -/
theorem CallsFit.talkingGone (h : CallsFit due none s) (hd : (s.slot n).disp = .talking)
    (hp : (s.slot n).position = some p) (hv : SlotFits False s.callTicks v) (hseat : v.disp.isSeated = false)
    (hlist : v.disp.isListed = false) :
    CallsFit due (some p) ((s.setSlot n v).vacate p) ∧ (s.pos p).state = .engaged := by
  obtain ⟨he, ht⟩ := (h.linked n p).talking.1 ⟨hd, hp⟩
  have m : Moved s ((s.setSlot n v).vacate p) n v p { s.pos p with talking := none } := moved_setSlot_setPos ..
  exact ⟨(h.loosen p).talkingLeaves he ht m hv hseat rfl
    (listFollows_kept h.listed m.slot rfl (by rw [hlist, hd]; rfl)), he⟩

/-- A talking call leaves for a record that no position holds, and its position moves on (R21, R37, R40, R41). -/
theorem CallsFit.leavesCall (h : CallsFit due none s) (hd : (s.slot n).disp = .talking)
    (hp : (s.slot n).position = some p) (hv : SlotFits False s.callTicks v) (hseat : v.disp.isSeated = false)
    (hlist : v.disp.isListed = false) (byHold : Bool) : CallsFit due none ((s.setSlot n v).leaveCall p byHold) := by
  obtain ⟨hgone, he⟩ := h.talkingGone hd hp hv hseat hlist
  have hpos : ((s.setSlot n v).vacate p).pos p = { s.pos p with talking := none } := pos_vacate ..
  rw [← leaveCall_vacate]
  exact hgone.leaveCall (by rw [hpos]; exact he) (by rw [hpos]) byHold

/-- A slot that is not listed goes FREE without a change to the list. -/
theorem freeSlot_of_unlisted (h : ListFollows s) (hn : (s.slot n).disp.isListed = false) :
    s.freeSlot n = s.setSlot n Slot.empty := by
  have := congrArg (State.setSlot · n Slot.empty) (unlist_of_unlisted h hn)
  exact this

theorem CallsFit.freeTalking (h : CallsFit due none s) (hd : (s.slot n).disp = .talking)
    (hp : (s.slot n).position = some p) (byHold : Bool) : CallsFit due none ((s.freeSlot n).leaveCall p byHold) := by
  rw [freeSlot_of_unlisted h.listed (by rw [hd]; rfl)]
  exact h.leavesCall hd hp (slotFits_empty _ _) rfl rfl byHold

theorem CallsFit.abandonTalking (h : CallsFit due none s) (hd : (s.slot n).disp = .talking) :
    CallsFit due none (s.abandonTalking n) := by
  obtain ⟨p, hp⟩ := Option.isSome_iff_exists.1 ((h.slots n).placed (by rw [hd]; rfl))
  simp only [State.abandonTalking, hp]
  exact (h.freeTalking hd hp false).arbitrateAfter _ _

theorem CallsFit.abandonSplit (h : CallsFit due none s) (hd : (s.slot n).disp = .split) :
    CallsFit due none (s.abandonSplit n) := by
  obtain ⟨p, hp⟩ := Option.isSome_iff_exists.1 ((h.slots n).placed (by rw [hd]; rfl))
  have m : Moved s ((s.freeSlot n).setPos p { s.pos p with stack := dropEntry (s.pos p).stack n }) n Slot.empty p
      { s.pos p with stack := dropEntry (s.pos p).stack n } :=
    moved_records s n _ p _ s.readyList (s.answerList.filter fun e => decide (e.slot ≠ n)) s.counters s.latched
  simp only [State.abandonSplit, hp]
  refine (((h.loosen p).splitLeaves ⟨hd, hp⟩ m (slotFits_empty _ _) rfl rfl
    (listFollows_unlisted h.listed m.slot rfl rfl)).tighten ?_).arbitrateAfter _ _
  rw [m.pos, if_pos rfl]
  exact h.staffed p (by simp)

theorem CallsFit.abandonEvent (h : CallsFit due none s) (n : SlotNo) : CallsFit due none (s.abandonEvent n).state := by
  unfold State.abandonEvent
  split
  case h_1 => exact h
  case h_2 hd => exact h.abandonWaiting (by rw [hd]; rfl)
  case h_3 hd => exact h.abandonWaiting (by rw [hd]; rfl)
  case h_4 hd => exact h.abandonPresented hd
  case h_5 hd => exact h.abandonTalking hd
  case h_6 hd => exact h.abandonSplit hd
  all_goals rename_i hd; exact h.freeSlot (by rw [hd]; rfl)

theorem CallsFit.extAnswerEvent (h : CallsFit due none s) (n : SlotNo) :
    CallsFit due none (s.extAnswerEvent n).state := by
  unfold State.extAnswerEvent
  split
  · rename_i hd
    exact h.freeSlot (h.away_facts (.inr ((isAtDestination_iff _).1 hd))).2.1
  · exact h

theorem CallsFit.extBusyEvent (h : CallsFit due none s) (n : SlotNo) :
    CallsFit due none (s.extBusyEvent n).state := by
  unfold State.extBusyEvent
  split
  · rename_i hd
    obtain ⟨hh, hseat, hlist⟩ := h.away_facts (.inr (.inl hd))
    exact h.setSlot_away hseat hlist (slotFits_away hh (.inr (.inr rfl)) (deadlineAhead_armAt _ _ _)) rfl rfl
  · exact h

theorem CallsFit.extFreeEvent (h : CallsFit due none s) (n : SlotNo) :
    CallsFit due none (s.extFreeEvent n).state := by
  unfold State.extFreeEvent
  split
  · rename_i hd
    obtain ⟨hh, hseat, hlist⟩ := h.away_facts (.inr (.inr hd))
    exact h.setSlot_away hseat hlist (slotFits_away hh (.inr (.inl rfl)) (deadlineAhead_armAt _ _ _)) rfl rfl
  · exact h

theorem CallsFit.extFailEvent (h : CallsFit due none s) (n : SlotNo) :
    CallsFit due none (s.extFailEvent n).state := by
  unfold State.extFailEvent
  split
  · rename_i hd
    exact (h.recallSlot_without (.inr ((isAtDestination_iff _).1 hd))).of_without.arbitrate
  · exact h

theorem CallsFit.lineEvent (h : CallsFit due none s) (n : SlotNo) (code : BitVec 8) (g : GroupNo) :
    CallsFit due none (s.lineEvent n code g).state := by
  unfold State.lineEvent
  split
  · exact h.offerEvent n g
  · exact h.abandonEvent n
  · exact h.extAnswerEvent n
  · exact h.extBusyEvent n
  · exact h.extFreeEvent n
  · exact h.extFailEvent n
  · exact h

end
end Sys2Proof.Machine
end

section
/-! PROOFS. ANSWER: what it ends. -/

namespace Sys2Proof.Machine

open Sys2Proof.Safety

section
variable {due : TimerOwner → Prop} {s t : State} {n : SlotNo} {p : PosNo} {v : Slot} {x : Position}

/-! ANSWER (R33 to R36), told as the call leaving where it was, the talking call going on the stack and the call
entering. -/

/-- A position that loses what it presents of slot `n`. -/
def Position.without (q : Position) (n : SlotNo) : Position :=
  { q with presented := if q.presented = some n then none else q.presented }

theorem Position.without_eq_self {q : Position} (h : q.presented ≠ some n) : q.without n = q := by
  simp [Position.without, h]

theorem Position.without_presented (q : Position) (n : SlotNo) : (q.without n).presented ≠ some n := by
  by_cases h : q.presented = some n <;> simp [Position.without, h]

/-- `s` once slot `n` has gone FREE and position `p` presents it no longer. -/
def State.letGo (s : State) (n : SlotNo) (p : PosNo) : State := (s.freeSlot n).setPos p ((s.pos p).without n)

theorem pos_letGo (s : State) (n : SlotNo) (p q : PosNo) :
    (s.letGo n p).pos q = if q = p then (s.pos p).without n else s.pos q := State.pos_setPos _ p q _

theorem slot_letGo (s : State) (n m : SlotNo) (p : PosNo) :
    (s.letGo n p).slot m = if m = n then Slot.empty else s.slot m := State.slot_setSlot s n m _

theorem letGo_of_not_presented (h : (s.pos p).presented ≠ some n) : s.letGo n p = s.freeSlot n := by
  rw [State.letGo, Position.without_eq_self h]; exact State.setPos_pos (s.freeSlot n) p

theorem answerable_cases {d : Disp} (h : d.isAnswerable = true) : d = .presented ∨ d.isSeated = false := by
  cases d <;> simp_all [Disp.isAnswerable, Disp.isSeated]

/-- An answered call leaves the position that presented it, if any (R34). -/
theorem CallsFit.endElsewhere (h : CallsFit due none s) (ha : (s.slot n).disp.isAnswerable = true) (p : PosNo) :
    CallsFit due (some p) ((s.endElsewhere n p).letGo n p) ∧
      ((s.pos p).presented ≠ some n → CallsFit due none ((s.endElsewhere n p).letGo n p)) ∧
      (s.endElsewhere n p).pos p = s.pos p := by
  rcases answerable_cases ha with hd | hseat
  · obtain ⟨o, ho⟩ := Option.isSome_iff_exists.1 ((h.slots n).placed (by rw [hd]; rfl))
    have hpres := (h.linked n o).presented.1 ⟨hd, ho⟩
    by_cases hop : o = p
    · subst hop
      have he : s.endElsewhere n o = s := by simp [State.endElsewhere, hd, ho]
      have hw : (s.pos o).without n = { s.pos o with presented := none } := by simp [Position.without, hpres]
      have m : Moved s (s.letGo n o) n Slot.empty o { s.pos o with presented := none } :=
        hw ▸ moved_records s n _ o _ s.readyList (s.answerList.filter fun e => decide (e.slot ≠ n)) s.counters s.latched
      rw [he]
      exact ⟨((h.loosen o).presentedLeaves hpres m (slotFits_empty _ _) rfl rfl
        (listFollows_unlisted h.listed m.slot rfl rfl)).of_without, fun k => absurd hpres k, rfl⟩
    · have he : s.endElsewhere n p = s.releasePresenter o := by simp [State.endElsewhere, hd, ho, hop]
      have hpos : (s.releasePresenter o).pos p = s.pos p := by
        rw [State.pos_releasePresenter, if_neg (Ne.symm hop)]
      have hnot : (s.pos p).presented ≠ some n := by
        rw [ne_eq, ← (h.linked n p).presented, ho]; simp [hop]
      have hfree : (s.releasePresenter o).freeSlot n = (s.freeSlot n).releasePresenter o := by
        by_cases hst : (s.pos o).state = .presenting
        · rw [releasePresenter_presenting hst, releasePresenter_presenting (s := s.freeSlot n) hst]; rfl
        · rw [releasePresenter_engaged hst, releasePresenter_engaged (s := s.freeSlot n) hst]; rfl
      have hfit := h.presenterReleased hpres
      rw [he, letGo_of_not_presented (by rwa [hpos]), hfree]
      exact ⟨hfit.loosen p, fun _ => hfit, hpos⟩
  · have he : s.endElsewhere n p = s := by
      unfold State.endElsewhere
      split
      · rename_i hd _; simp [hd, Disp.isSeated] at hseat
      · rfl
    have hnot := (h.unheld hseat p).2.1
    rw [he, letGo_of_not_presented hnot]
    exact ⟨(h.freeSlot hseat).loosen p, fun _ => h.freeSlot hseat, rfl⟩

/-- What a position presents returns to waiting just the same once another slot has gone FREE. -/
theorem withdraw_freeSlot {m : SlotNo} (hm : (s.pos p).presented = some m) (hmn : m ≠ n) :
    (s.withdraw p).freeSlot n = (s.freeSlot n).withdraw p := by
  have hslot : (s.freeSlot n).slot m = s.slot m := State.slot_setSlot_ne _ _ (Ne.symm hmn)
  have hcomm := Vector.set_comm (xs := s.slots) (s.slot m).returned Slot.empty (hi := m.isLt) (hj := n.isLt)
    fun e => hmn (Fin.ext e)
  rw [State.withdraw_some hm, State.withdraw_some (s := s.freeSlot n) hm]
  simp only [State.returnSlot, hslot]
  simp only [State.freeSlot, State.setSlot, State.setPos, State.unlist, hcomm]
  rfl

/-- Once the presentations in the way have ended, the position is as it was or presents nothing (R34). -/
theorem CallsFit.clearForAnswer (h : CallsFit due none s) (ha : (s.slot n).disp.isAnswerable = true) (p : PosNo) :
    CallsFit due (some p) ((s.clearForAnswer n p).letGo n p) ∧
      ((s.clearForAnswer n p).pos p).state = (s.pos p).state ∧
      ((s.pos p).state = .engaged → (s.clearForAnswer n p).pos p = s.pos p) ∧
      ((s.pos p).state ≠ .engaged → (((s.clearForAnswer n p).pos p).without n).presented = none) := by
  obtain ⟨hfit, hfit', hpos⟩ := h.endElsewhere ha p
  unfold State.clearForAnswer
  split
  · rename_i hc
    simp only [Bool.and_eq_true, decide_eq_true_eq] at hc
    obtain ⟨hst, hne⟩ := hc
    have hfit := (hfit' hne).loosen p
    rw [letGo_of_not_presented (by rwa [hpos])] at hfit
    have hw : ((s.endElsewhere n p).withdraw p).pos p = { s.pos p with presented := none } := by
      rw [State.pos_withdraw, if_pos rfl, hpos]
    refine ⟨?_, by rw [hw], fun k => by simp [hst] at k, fun _ => by rw [hw]; rfl⟩
    rw [letGo_of_not_presented (by rw [hw]; simp)]
    obtain ⟨m, hm⟩ := Option.isSome_iff_exists.1 ((h.staffed p (by simp)).2 hst)
    have hmn : m ≠ n := fun e => hne (by rw [hm, e])
    rw [withdraw_freeSlot (by rw [hpos, hm]) hmn]
    exact hfit.withdraw
  · rename_i hc
    refine ⟨hfit, by rw [hpos], fun _ => hpos, fun k => ?_⟩
    rw [hpos]
    by_cases hst : (s.pos p).state = .presenting
    · have : (s.pos p).presented = some n := by simpa [hst] using hc
      simp [Position.without, this]
    · have := (h.positions p).fields.2.1 k hst
      simp [Position.without, this]

end
end Sys2Proof.Machine
end

section
/-! PROOFS. ANSWER: what it sets aside. -/

namespace Sys2Proof.Machine

open Sys2Proof.Safety

section
variable {due : TimerOwner → Prop} {s t : State} {n : SlotNo} {p : PosNo} {v : Slot} {x : Position}

theorem pushTalking_engaged {m : SlotNo} {c : Class} (he : (s.pos p).state = .engaged)
    (ht : (s.pos p).talking = some m) (hc : (s.pos p).threshold = some c) : s.pushTalking p =
      (s.setSlot m (s.slot m).setAside).setPos p { s.pos p with stack := ⟨m, c⟩ :: (s.pos p).stack } := by
  simp [State.pushTalking, he, ht, hc]

theorem pushTalking_other (he : (s.pos p).state ≠ .engaged) : s.pushTalking p = s := by
  unfold State.pushTalking
  split
  · rename_i k _ _; exact absurd k he
  · rfl

/-! Nothing of an ANSWER touches the answer list before the slot leaves it. -/

theorem answerList_withdraw (s : State) (p : PosNo) : (s.withdraw p).answerList = s.answerList := by
  unfold State.withdraw; split <;> rfl

theorem answerList_endElsewhere (s : State) (n : SlotNo) (p : PosNo) :
    (s.endElsewhere n p).answerList = s.answerList := by
  unfold State.endElsewhere
  split
  · split
    · rfl
    · unfold State.releasePresenter; split <;> rfl
  · rfl

theorem answerList_clearForAnswer (s : State) (n : SlotNo) (p : PosNo) :
    (s.clearForAnswer n p).answerList = s.answerList := by
  unfold State.clearForAnswer
  split
  · rw [answerList_withdraw, answerList_endElsewhere]
  · exact answerList_endElsewhere s n p

theorem answerList_pushTalking (s : State) (p : PosNo) : (s.pushTalking p).answerList = s.answerList := by
  unfold State.pushTalking; split <;> rfl

/-- The push of an ANSWER moves the talking call alone, whatever is made of slot `n` (R33). -/
theorem moved_push {m : SlotNo} (hmn : m ≠ n) (c : Class) :
    Moved (s.letGo n p) ((((s.setSlot m (s.slot m).setAside).setPos p { x with stack := ⟨m, c⟩ :: x.stack }).letGo n
      p).vacate p) m (s.slot m).setAside p { x.without n with talking := none, stack := ⟨m, c⟩ :: x.stack } := by
  refine ⟨by constructor <;> rfl, fun a => ?_, fun q => ?_, rfl, rfl⟩
  · change (((s.setSlot m (s.slot m).setAside).setPos p _).letGo n p).slot a = _
    rw [slot_letGo, slot_letGo, State.slot_setPos, State.slot_setSlot]
    by_cases h : a = n
    · rw [if_pos h, if_neg (h ▸ Ne.symm hmn), if_pos h]
    · rw [if_neg h, if_neg h]
  · rw [State.vacate, State.pos_setPos, pos_letGo, pos_letGo, pos_letGo, if_pos rfl, State.pos_setPos_same]
    by_cases h : q = p
    · rw [if_pos h, if_pos h]; rfl
    · rw [if_neg h, if_neg h, if_neg h, if_neg h, State.pos_setPos_ne _ _ (Ne.symm h)]; rfl

/-- The talking call of an ENGAGED position that answers is set aside (R33): the position has room for it and awaits its
new call. -/
theorem CallsFit.pushForAnswer (h : CallsFit due none s) (ha : (s.slot n).disp.isAnswerable = true)
    (hroom : (s.pos p).state = .engaged → (s.pos p).stack.length < Config.stackDepth) :
    CallsFit due (some p) ((((s.clearForAnswer n p).pushTalking p).letGo n p).vacate p) := by
  obtain ⟨hfit, hstate, hkeep, -⟩ := h.clearForAnswer ha p
  generalize s.clearForAnswer n p = cl at hfit hstate hkeep
  by_cases he : (s.pos p).state = .engaged
  · have hpos := hkeep he
    obtain ⟨htalks, hthreshold⟩ := (h.staffed p (by simp)).1 he
    obtain ⟨m, hm⟩ := Option.isSome_iff_exists.1 htalks
    obtain ⟨c, hc⟩ := Option.isSome_iff_exists.1 hthreshold
    have hmn : m ≠ n := by
      rintro rfl
      have := ((h.linked m p).talking.2 ⟨he, hm⟩).1
      simp [this, Disp.isAnswerable] at ha
    have hup : (cl.letGo n p).pos p = (s.pos p).without n := by rw [pos_letGo, if_pos rfl, hpos]
    have hus : (cl.letGo n p).slot m = cl.slot m := by rw [slot_letGo, if_neg hmn]
    have hl := hfit.linked m p
    have hsl := hfit.slots m
    rw [hus] at hl hsl
    rw [hup] at hl
    obtain ⟨hmd, hmp⟩ := hl.talking.2 ⟨he, hm⟩
    obtain ⟨sc, hsc, hsct⟩ := hl.threshold he hm
    rw [pushTalking_engaged (by rw [hpos]; exact he) (by rw [hpos]; exact hm) (by rw [hpos]; exact hc), hpos]
    exact hfit.splitEnters hup (moved_push hmn c) (by rw [hus]; exact .of_position hmp) (by rw [hus, hmd]; simp)
      (hsl.setAside hmd) ⟨rfl, hmp⟩ he (hroom he) (by simp)
      (fun a hane => by simpa [Position.without, hm] using Ne.symm hane) ⟨sc, hsc, hc.symm.trans hsct⟩ rfl
      (by rw [hus, hmd]; rfl) rfl
  · rw [pushTalking_other (by rw [hstate]; exact he)]
    have ht : ((cl.letGo n p).pos p).talking = none :=
      ((hfit.positions p).fields.1 (by rw [pos_letGo, if_pos rfl]; simpa [Position.without, hstate] using he)).1
    have hself : (cl.letGo n p).vacate p = cl.letGo n p := by
      rw [State.vacate, ← ht]; exact State.setPos_pos _ p
    rwa [hself]

end
end Sys2Proof.Machine
end

section
/-! PROOFS. ANSWER: what it seats. -/

namespace Sys2Proof.Machine

open Sys2Proof.Safety

section
variable {due : TimerOwner → Prop} {s t : State} {n : SlotNo} {p : PosNo} {v : Slot} {x : Position}

/-- Slot `n` talks at `p` with the record `v`, over the answer list `al` and the counters `ct`: what an ANSWER leaves
before its re-test. -/
def State.seated (s : State) (n : SlotNo) (p : PosNo) (v : Slot) (c : Class) (al : List Listed)
    (ct : Vector Counters 32) : State :=
  { (s.setSlot n v).setPos p ((s.pos p).engagedWith n c) with
    readyList := withoutPos s.readyList p, answerList := al, counters := ct }

/-- ANSWER of a listed call takes it out of the list and counts it; that of another leaves both (R35). -/
theorem answerTaken_eq (s : State) (n : SlotNo) (p : PosNo) : ∃ ct,
    s.answerTaken n p = ((((s.clearForAnswer n p).pushTalking p).seated n p ((s.slot n).answeredAt p (s.classOf n))
      (s.classOf n) (if (s.slot n).disp.isListed then
        ((s.clearForAnswer n p).pushTalking p).answerList.filter fun e => decide (e.slot ≠ n)
        else ((s.clearForAnswer n p).pushTalking p).answerList) ct).retest p).arbitrate := by
  unfold State.answerTaken
  dsimp only
  generalize (s.clearForAnswer n p).pushTalking p = w
  split
  · refine ⟨(w.countAnswered (s.slot n).group).counters, congrArg (fun u => (State.retest u p).arbitrate) ?_⟩
    rfl
  · refine ⟨w.counters, congrArg (fun u => (State.retest u p).arbitrate) ?_⟩
    rfl

/-- The answered call enters the position that awaits it (R35). -/
theorem CallsFit.seats {c : Class} (h : CallsFit due (some p) ((s.letGo n p).vacate p)) (hf : p.val < s.fitted)
    (hcalm : (s.pos p).state ≠ .engaged → ((s.pos p).without n).presented = none)
    (hv : SlotFits False s.callTicks v) (hvt : v.disp = .talking ∧ v.position = some p)
    (hc : v.savedClass = some c) {al : List Listed} (hal : al = s.answerList.filter fun e => decide (e.slot ≠ n))
    (ct : Vector Counters 32) : CallsFit due none (s.seated n p v c al ct) := by
  have hpos : ∀ q, ((s.letGo n p).vacate p).pos q =
      if q = p then { (s.pos p).without n with talking := none } else s.pos q := by
    intro q
    rw [State.vacate, State.pos_setPos, pos_letGo, pos_letGo, if_pos rfl]
    split <;> rfl
  have hslot : ∀ m, ((s.letGo n p).vacate p).slot m = if m = n then Slot.empty else s.slot m :=
    fun m => slot_letGo s n m p
  have hyp : ((s.letGo n p).vacate p).pos p = { (s.pos p).without n with talking := none } := by
    rw [hpos, if_pos rfl]
  have hyn : ((s.letGo n p).vacate p).slot n = Slot.empty := by rw [hslot, if_pos rfl]
  have m : Moved ((s.letGo n p).vacate p) (s.seated n p v c al ct) n v p ((s.pos p).engagedWith n c) := by
    refine ⟨by constructor <;> rfl, fun a => ?_, fun q => ?_, rfl, rfl⟩
    · rw [hslot]
      refine (State.slot_setSlot s n a v).trans ?_
      split <;> rfl
    · rw [hpos]
      refine (State.pos_setPos (s.setSlot n v) p q _).trans ?_
      split <;> rfl
  have hp := h.positions p
  rw [hyp] at hp
  have hpres : ((s.pos p).engagedWith n c).presented = ((s.pos p).without n).presented := by
    by_cases he : (s.pos p).state = .engaged
    · by_cases hn : (s.pos p).presented = some n <;> simp [Position.engagedWith, Position.without, he, hn]
    · rw [hcalm he]; simp [Position.engagedWith, he]
  have hstack : ∀ e ∈ (s.pos p).stack, e.slot ≠ n := by
    have := (h.unheld (n := n) (by rw [hyn]; rfl) p).2.2
    rw [hyp] at this
    exact fun e he k => this ⟨e, he, k⟩
  refine h.talkingEnters m (by rw [hyn]; exact seatedOnlyAt_unseated rfl) (by rw [hyp]) hv hvt
    (positionFits_engaged rfl rfl hp.fields.2.2.2 hp.stack_nodup (by change ¬s.fitted ≤ p.val; omega)) ⟨rfl, rfl⟩
    (by rw [hyp, hpres]) (by rw [hpres]; exact Position.without_presented _ _)
    (by rw [hyp]; exact fun _ _ => Iff.rfl) hstack
    ⟨c, hc, rfl⟩ (readyListExact_removed h.ready m.pos rfl (by simp [Position.engagedWith]))
    (listFollows_kept h.listed m.slot hal (by rw [hyn, hvt.1]; rfl))

theorem CallsFit.answerTaken (h : CallsFit due none s) (ha : (s.slot n).disp.isAnswerable = true)
    (hf : p.val < s.fitted) (hroom : (s.pos p).state = .engaged → (s.pos p).stack.length < Config.stackDepth) :
    CallsFit due none (s.answerTaken n p) := by
  obtain ⟨-, hstate, -, hcalm⟩ := h.clearForAnswer ha p
  have hk : Kept s ((s.clearForAnswer n p).pushTalking p) := (kept_clearForAnswer s n p).trans (kept_pushTalking _ p)
  have hpushed := h.pushForAnswer ha hroom
  have hcalm' : (((s.clearForAnswer n p).pushTalking p).pos p).state ≠ .engaged →
      ((((s.clearForAnswer n p).pushTalking p).pos p).without n).presented = none := by
    intro hne
    have hst : (s.pos p).state ≠ .engaged := by
      intro he
      refine hne ?_
      unfold State.pushTalking
      split
      · rename_i k _ _; rw [State.pos_setPos_same]; exact k
      · rw [hstate, he]
    rw [pushTalking_other (by rw [hstate]; exact hst)]
    exact hcalm hst
  have hal : ((s.clearForAnswer n p).pushTalking p).answerList = s.answerList :=
    (answerList_pushTalking _ p).trans (answerList_clearForAnswer s n p)
  obtain ⟨ct, heq⟩ := answerTaken_eq s n p
  rw [heq]
  refine ((hpushed.seats (by rw [State.fitted, hk.straps]; exact hf) hcalm' (slotFits_answeredAt _ _ _ _ _) ⟨rfl, rfl⟩
    rfl ?_ ct).retest
    (by rw [show (State.seated _ n p _ _ _ _).pos p = _ from State.pos_setPos_same ..]; rfl)).arbitrate
  split
  · rfl
  · rename_i hl
    have := congrArg State.answerList (unlist_of_unlisted h.listed (by simpa using hl))
    rw [hal]
    exact this.symm

end
end Sys2Proof.Machine
end

section
/-! PROOFS. The other actions, CONTROL and the Mode Unit. -/

namespace Sys2Proof.Machine

open Sys2Proof.Safety

section
variable {due : TimerOwner → Prop} {s t : State} {n : SlotNo} {p : PosNo} {v : Slot} {x : Position}

/-! The other actions (R37 to R42). -/

theorem CallsFit.awayTaken {d : Disp} (h : CallsFit due none s) (hd : (s.slot n).disp = .talking)
    (hp : (s.slot n).position = some p) (hdest : d = .held ∨ d = .extended ∨ d = .camped) (seconds : BitVec 8)
    (byHold : Bool) : CallsFit due none ((s.setSlot n ((s.slot n).away d (s.arm seconds))).leaveCall p byHold) := by
  have hh := (h.slots n).home.2.2 (.inl hd)
  refine h.leavesCall hd hp (slotFits_away hh.1 hdest (deadlineAhead_armAt _ _ _)) ?_ ?_ byHold <;>
    rcases hdest with rfl | rfl | rfl <;> rfl

/-- The records two calls of one position have exchanged, before the re-test of an offer (R39). -/
def State.exchanged (s : State) (n m : SlotNo) (p : PosNo) (v w : Slot) (x : Position) : State :=
  ((s.setSlot n v).setSlot m w).setPos p x

theorem slot_exchanged (s : State) (n m a : SlotNo) (p : PosNo) (v w : Slot) (x : Position) :
    (s.exchanged n m p v w x).slot a = if a = m then w else if a = n then v else s.slot a := by
  rw [State.exchanged, State.slot_setPos, State.slot_setSlot, State.slot_setSlot]

theorem pos_exchanged (s : State) (n m : SlotNo) (p q : PosNo) (v w : Slot) (x : Position) :
    (s.exchanged n m p v w x).pos q = if q = p then x else s.pos q := State.pos_setPos _ p q x

/-- Replacing the record of the first of two slots is a move of that slot. -/
theorem moved_exchanged (s : State) {n m : SlotNo} (hne : m ≠ n) (p : PosNo) (v v' w : Slot) (x x' : Position) :
    Moved (s.exchanged n m p v w x) (s.exchanged n m p v' w x') n v' p x' := by
  refine ⟨by constructor <;> rfl, fun a => ?_, fun q => ?_, rfl, rfl⟩
  · rw [slot_exchanged, slot_exchanged]
    by_cases h : a = n
    · rw [if_neg (h ▸ Ne.symm hne), if_pos h, if_pos h]
    · rw [if_neg h, if_neg h, if_neg h]
  · rw [pos_exchanged, pos_exchanged]
    split <;> rfl

theorem swapTaken_eq {top : StackEntry} {rest : List StackEntry} {c : Class} (hc : (s.pos p).threshold = some c)
    (hne : top.slot ≠ n) : s.swapTaken n p top rest =
      ((s.exchanged n top.slot p (s.slot n).setAside (s.slot top.slot).broughtBack { s.pos p with
        talking := some top.slot, threshold := some top.threshold, stack := ⟨n, c⟩ :: rest }).retest p).arbitrate := by
  simp only [State.swapTaken, hc, State.exchanged, State.slot_setSlot_ne s _ (Ne.symm hne)]

/-- A position record whose stack top talks again (R39, R44). -/
def Position.popped (q : Position) (top : StackEntry) (rest : List StackEntry) : Position :=
  { q with talking := some top.slot, threshold := some top.threshold, stack := rest }

/-- With the talking call gone, the top of the stack talks (R39). -/
theorem CallsFit.swapPops {top : StackEntry} {rest : List StackEntry} (h : CallsFit due none s)
    (hd : (s.slot n).disp = .talking) (hp : (s.slot n).position = some p) (hst : (s.pos p).stack = top :: rest)
    (hne : top.slot ≠ n) : CallsFit due none
      (s.exchanged n top.slot p Slot.empty (s.slot top.slot).broughtBack ((s.pos p).popped top rest)) := by
  obtain ⟨hgone, he⟩ := h.talkingGone hd hp (slotFits_empty _ _) rfl rfl
  have hpos : ((s.setSlot n Slot.empty).vacate p).pos p = { s.pos p with talking := none } := pos_vacate ..
  have hslot : ((s.setSlot n Slot.empty).vacate p).slot top.slot = s.slot top.slot :=
    State.slot_setSlot_ne s _ (Ne.symm hne)
  have hpop := hgone.pop (top := top) (rest := rest) (by rw [hpos]; exact he) (by rw [hpos]) (by rw [hpos]; exact hst)
  rw [hpos, hslot] at hpop
  have heq := State.setPos_setPos ((s.setSlot n Slot.empty).setSlot top.slot (s.slot top.slot).broughtBack) p
    { s.pos p with talking := none } ((s.pos p).popped top rest)
  exact (congrArg (CallsFit due none) heq).mp hpop

/-- SWAP (R39): the talking call goes, the top of the stack talks, and the call that talked goes on the stack. -/
theorem CallsFit.swapTaken {top : StackEntry} {rest : List StackEntry} (h : CallsFit due none s)
    (hd : (s.slot n).disp = .talking) (hp : (s.slot n).position = some p) (hst : (s.pos p).stack = top :: rest) :
    CallsFit due none (s.swapTaken n p top rest) := by
  have hl := h.linked n p
  obtain ⟨he, ht⟩ := hl.talking.1 ⟨hd, hp⟩
  obtain ⟨sc, hsc, hc⟩ := hl.threshold he ht
  have hsplit := (h.linked top.slot p).split.2 ⟨top, by simp [hst], rfl⟩
  have hne : top.slot ≠ n := fun k => by rw [k, hd] at hsplit; simp at hsplit
  have hlen : rest.length < Config.stackDepth := by
    have := (h.positions p).fields.2.2.2
    rw [hst, List.length_cons] at this
    omega
  have hpos := fun v w (x : Position) => (pos_exchanged s n top.slot p p v w x).trans (if_pos rfl)
  have hyn : (s.exchanged n top.slot p Slot.empty (s.slot top.slot).broughtBack
      ((s.pos p).popped top rest)).slot n = Slot.empty := by
    rw [slot_exchanged, if_neg (Ne.symm hne), if_pos rfl]
  have hpush := ((h.swapPops hd hp hst hne).loosen p).splitEnters (hpos _ _ _)
    (moved_exchanged s hne p Slot.empty (s.slot n).setAside _ _ _) (by rw [hyn]; exact seatedOnlyAt_unseated rfl)
    (by rw [hyn]; decide) ((h.slots n).setAside hd) ⟨rfl, hp⟩ he hlen (by simpa [Position.popped] using hne)
    (fun _ _ => Iff.rfl) ⟨sc, hsc, rfl⟩ rfl (by rw [hyn]; rfl) rfl
  rw [swapTaken_eq hc hne]
  refine ((hpush.tighten ?_).retest ?_).arbitrate
  · rw [hpos]; exact ⟨fun _ => ⟨rfl, rfl⟩, fun k => by simp [Position.popped, he] at k⟩
  · rw [hpos]; exact he

theorem namedPosition_fitted {field : BitVec 8} (h : s.namedPosition field = some p) : p.val < s.fitted := by
  unfold State.namedPosition at h
  split at h
  · split at h
    · rename_i hf
      rw [← Option.some.inj h]
      simpa [State.isFitted] using hf
    · simp at h
  · simp at h

/-- An action on a talking call is taken at the position that holds it (R30). -/
theorem judgeTalking_none (h : s.judgeTalking n p = none) :
    (s.slot n).disp = .talking ∧ (s.slot n).position = some p := by
  unfold State.judgeTalking at h
  split at h
  · split at h
    · exact ⟨‹_›, ‹_›⟩
    · simp at h
  · simp at h

theorem CallsFit.answerAction (h : CallsFit due none s) (hf : p.val < s.fitted) :
    CallsFit due none (s.answerAction n p).state := by
  unfold State.answerAction
  split
  · rename_i ha
    split
    · exact h
    · split
      · exact h
      · rename_i hroom
        refine h.answerTaken ha hf fun he => ?_
        simpa [State.isEngaged, he] using hroom
  · exact h

theorem CallsFit.swapAction (h : CallsFit due none s) (n : SlotNo) (p : PosNo) :
    CallsFit due none (s.swapAction n p).state := by
  unfold State.swapAction
  split
  · exact h
  · rename_i hj
    obtain ⟨hd, hp⟩ := judgeTalking_none hj
    split
    · exact h
    · rename_i hst
      exact h.swapTaken hd hp hst

theorem CallsFit.actionEvent (h : CallsFit due none s) (n : SlotNo) (code field : BitVec 8) :
    CallsFit due none (s.actionEvent n code field).state := by
  unfold State.actionEvent
  split
  · exact h
  · split
    · exact h
    · rename_i hfield
      split
      · exact h.answerAction (namedPosition_fitted hfield)
      · unfold State.holdAction
        split
        · exact h
        · rename_i hj
          obtain ⟨hd, hp⟩ := judgeTalking_none hj
          exact (h.awayTaken hd hp (.inl rfl) _ true).arbitrateAfter _ _
      · exact h.swapAction n _
      · unfold State.extendAction
        split
        · exact h
        · rename_i hj
          obtain ⟨hd, hp⟩ := judgeTalking_none hj
          exact (h.awayTaken hd hp (.inr (.inl rfl)) _ false).arbitrateAfter _ _
      · unfold State.releaseAction
        split
        · rename_i hd
          exact h.freeSlot (h.away_facts (.inl hd)).2.1
        · split
          · exact h
          · rename_i hj
            obtain ⟨hd, hp⟩ := judgeTalking_none hj
            exact (h.freeTalking hd hp false).arbitrateAfter _ _

/-! CONTROL commands (R77 to R81). -/

theorem CallsFit.markClosePending (h : CallsFit due none s) (he : (s.pos p).state = .engaged) :
    CallsFit due none (s.setPos p { s.pos p with closePending := true }) := by
  have hp := h.positions p
  have hf := fits_ne_closed_fitted h (p := p) (by simp [he])
  obtain ⟨-, -, hw, hlen⟩ := hp.fields
  have hpos := State.pos_setPos s p (v := { s.pos p with closePending := true })
  refine ((h.loosen p).changePos (kept_setPos s p _) (fun _ => rfl) hpos
    (positionFits_engaged he (hw (by simp [he])) hlen hp.stack_nodup (by omega))
    (fun _ l => l.same Iff.rfl Iff.rfl (fun _ _ => Iff.rfl) fun _ => rfl)
    (readyListExact_kept h.ready hpos rfl Iff.rfl) rfl rfl rfl).of_without.tighten ?_
  rw [State.pos_setPos_same]
  exact h.staffed p (by simp)

/-- CLOSE and a night request mark an ENGAGED position and take its offer (R80, R118). -/
theorem CallsFit.closeEngaged (h : CallsFit due none s) (he : (s.pos p).state = .engaged) :
    CallsFit due none ((s.withdraw p).setPos p { (s.withdraw p).pos p with closePending := true }) :=
  (h.withdraw_engaged he).markClosePending (by rw [State.pos_withdraw, if_pos rfl]; exact he)

/-- A position that is not ENGAGED closes, and what it presented returns (R79, R81, R118). -/
theorem CallsFit.closeOther (h : CallsFit due none s) (he : (s.pos p).state ≠ .engaged) :
    CallsFit due none ((s.withdraw p).becomeClosed p) :=
  (h.loosen p).withdraw.becomeClosed (h.unoccupied_withdraw he)

/-- The miss count of a position without calls, out of WRAPUP, may be any (R78, R90). -/
theorem CallsFit.setMisses (h : CallsFit due (some p) s) (hu : Unoccupied (s.pos p)) (hf : p.val < s.fitted)
    (hst : (s.pos p).state ≠ .wrapup) (k : BitVec 3) :
    CallsFit due (some p) (s.setPos p { s.pos p with misses := k }) := by
  have hp := h.positions p
  have hpos := State.pos_setPos s p (v := { s.pos p with misses := k })
  have hw : (s.pos p).wrapDeadline = none := hp.fields.2.2.1 hst
  exact (h.changePos (kept_setPos s p _) (fun _ => rfl) hpos
    ⟨hp.fields, hp.stack_nodup, fun hn => absurd hn (by omega), by rw [hw]; exact deadlineAhead_none _ _⟩
    (fun _ l => l.unoccupied hu ⟨hu.talking, hu.presented, hu.stack⟩) (readyListExact_kept h.ready hpos rfl Iff.rfl)
    rfl rfl rfl).of_without

theorem CallsFit.openTaken (h : CallsFit due none s) (hf : p.val < s.fitted) : CallsFit due none (s.openTaken p) := by
  unfold State.openTaken
  split
  · rename_i hst
    have hu := (h.positions p).unoccupied (by simp [hst]) (by simp [hst])
    have hpos := State.pos_setPos_same s p { s.pos p with misses := 0 }
    exact (((h.loosen p).setMisses hu hf (by simp [hst]) 0).becomeReady
      (by rw [hpos]; exact ⟨hu.talking, hu.presented, hu.stack⟩) hf).arbitrate
  · exact h

theorem CallsFit.closeTaken (h : CallsFit due none s) (p : PosNo) : CallsFit due none (s.closeTaken p) := by
  unfold State.closeTaken
  split
  case h_1 => exact h
  case h_2 hst =>
    exact (h.loosen p).becomeClosed ((h.positions p).unoccupied (by simp [hst]) (by simp [hst]))
  case h_3 hst =>
    exact (h.loosen p).becomeClosed ((h.positions p).unoccupied (by simp [hst]) (by simp [hst]))
  case h_4 hst => exact (h.closeOther (by simp [hst])).arbitrate
  case h_5 hst => exact (h.closeEngaged hst).arbitrateAfter _ _

theorem CallsFit.controlEvent (h : CallsFit due none s) (p : PosNo) (code : BitVec 8) :
    CallsFit due none (s.controlEvent p code).state := by
  unfold State.controlEvent
  split
  · split
    · rename_i hf
      split
      · exact h
      · exact h.openTaken (by simpa [State.isFitted] using hf)
    · exact h
  · split
    · exact h.closeTaken p
    · exact h
  · exact h

/-! The Mode Unit (R116 to R125). -/

/-- DAY with supervision armed now, or off (R120, R122, R125). -/
theorem CallsFit.enterDay (h : CallsFit due none s) : CallsFit due none s.enterDay :=
  { h with supervised := deadlineAhead_armAt _ _ _, supervision_day := fun _ => rfl }

theorem CallsFit.armSupervision (h : CallsFit due none s) (hd : s.actual = .day) :
    CallsFit due none s.armSupervision :=
  { h with supervised := deadlineAhead_armAt _ _ _, supervision_day := fun _ => hd }

/-- What every position's turn keeps, all positions' turns keep. -/
theorem CallsFit.foldPositions {f : State → PosNo → State}
    (hf : ∀ s p, CallsFit due none s → CallsFit due none (f s p)) (h : CallsFit due none s) (l : List PosNo) :
    CallsFit due none (l.foldl f s) := by
  induction l generalizing s with
  | nil => exact h
  | cons p l ih => exact ih (hf s p h)

theorem CallsFit.nightClose (h : CallsFit due none s) (p : PosNo) : CallsFit due none (s.nightClose p) := by
  unfold State.nightClose
  split
  · exact h
  · rename_i hst; exact h.closeEngaged hst
  · rename_i hst; exact h.closeOther hst

theorem CallsFit.nightRequest (h : CallsFit due none s) : CallsFit due none s.nightRequest := by
  have hclosed := h.foldPositions (f := State.nightClose) (fun _ p k => k.nightClose p) allPositions
  unfold State.nightRequest
  dsimp only
  split
  · exact hclosed.enterNight
  · exact hclosed.of_callPart rfl

theorem CallsFit.takeMode (h : CallsFit due none s) (v : Service) : CallsFit due none (s.takeMode v) := by
  have ha : CallsFit due none { s with requested := v } := h.of_callPart rfl
  unfold State.takeMode
  dsimp only
  split
  · split
    · exact ha
    · exact ha.nightRequest
  · split
    · refine CallsFit.arbitrate ?_
      exact h.of_callPart rfl
    · exact ha
  · exact ha.enterDay.arbitrate
  · exact ha
  · exact ha

theorem CallsFit.takeHeartbeat (h : CallsFit due none s) : CallsFit due none s.takeHeartbeat := by
  unfold State.takeHeartbeat
  split
  · rename_i hd; exact h.armSupervision hd
  · exact h
  · split
    · refine CallsFit.arbitrate ?_
      exact h.enterDay.of_callPart rfl
    · exact h.enterDay.nightRequest

end
end Sys2Proof.Machine
end

section
/-! PROOFS. Ticks and expiries keep the invariant. -/

namespace Sys2Proof.Machine

open Sys2Proof.Safety

section
variable {due : TimerOwner → Prop} {s t : State} {n : SlotNo} {p : PosNo} {v : Slot} {x : Position}

/-! Ticks and expiries (chapter 5). -/

theorem callPart_posting (s before : State) : (s.posting before).callPart = s.callPart := by
  obtain ⟨posts, owed, h, -⟩ := givePosts_spec s (changedPosts before s) (changedPosts_nodup before s)
  rw [State.posting, h]; rfl

theorem CallsFit.posting {loose : Option PosNo} (h : CallsFit due loose s) (before : State) :
    CallsFit due loose (s.posting before) := h.of_callPart (callPart_posting s before)

/-- A deadline that has not come need not be counted as due. -/
theorem CallsFit.notDue_slot {loose : Option PosNo} (h : CallsFit due loose s)
    (hn : (s.slot n).deadline ≠ some s.callTicks) : CallsFit (withoutDue due (.slot n)) loose s where
  __ := h
  slots m := { h.slots m with
    deadline := ⟨(h.slots m).deadline.1, fun e => ⟨(h.slots m).deadline.2 e, by rintro ⟨⟩; exact hn e⟩⟩ }
  positions p := { h.positions p with deadline := (h.positions p).deadline.mono fun a => ⟨a, by simp⟩ }
  supervised := h.supervised.mono fun a => ⟨a, by simp⟩

theorem CallsFit.notDue_position {loose : Option PosNo} (h : CallsFit due loose s)
    (hp : (s.pos p).wrapDeadline ≠ some s.callTicks) : CallsFit (withoutDue due (.position p)) loose s where
  __ := h
  slots m := { h.slots m with deadline := (h.slots m).deadline.mono fun a => ⟨a, by simp⟩ }
  positions q := { h.positions q with
    deadline := ⟨(h.positions q).deadline.1, fun e => ⟨(h.positions q).deadline.2 e, by rintro ⟨⟩; exact hp e⟩⟩ }
  supervised := h.supervised.mono fun a => ⟨a, by simp⟩

theorem CallsFit.notDue_supervision {loose : Option PosNo} (h : CallsFit due loose s)
    (hs : s.supervision ≠ some s.callTicks) : CallsFit (withoutDue due .supervision) loose s where
  __ := h
  slots m := { h.slots m with deadline := (h.slots m).deadline.mono fun a => ⟨a, by simp⟩ }
  positions q := { h.positions q with deadline := (h.positions q).deadline.mono fun a => ⟨a, by simp⟩ }
  supervised := ⟨h.supervised.1, fun e => absurd e hs⟩

/-- In RUN a deadline in its disposition is found expired when it has come (R105, R106). -/
theorem CallsFit.slotExpires_iff {loose : Option PosNo} (h : CallsFit due loose s) (d : Disp) :
    s.slotExpires n d = true ↔ (s.slot n).disp = d ∧ (s.slot n).deadline = some s.callTicks := by
  simp only [State.slotExpires, State.expired, Bool.and_eq_true, decide_eq_true_eq, h.seq, true_and,
    expiredAt_iff (h.slots n).deadline.1]

theorem CallsFit.latch {loose : Option PosNo} (h : CallsFit due loose s) (cause : BitVec 8) :
    CallsFit due loose (s.latch cause) := h.of_callPart rfl

/-- The miss of a PRESENTING position whose presentation has been withdrawn (R90). -/
theorem CallsFit.missAt (h : CallsFit due (some p) (s.withdraw p)) (hst : (s.pos p).state = .presenting) :
    CallsFit due none (s.missAt p) := by
  have hpos : (s.withdraw p).pos p = { s.pos p with presented := none } := by rw [State.pos_withdraw, if_pos rfl]
  obtain ⟨ht, -, hstack, -⟩ := (h.positions p).fields.1 (by rw [hpos]; simp [hst])
  have hu : Unoccupied ((s.withdraw p).pos p) := ⟨ht, by rw [hpos], hstack⟩
  have hf := fits_ne_closed_fitted h (p := p) (by rw [hpos]; simp [hst])
  have hm := h.setMisses hu hf (by rw [hpos]; simp [hst]) (satInc ((s.withdraw p).pos p).misses)
  have hu' : Unoccupied (((s.withdraw p).setPos p { (s.withdraw p).pos p with
      misses := satInc ((s.withdraw p).pos p).misses }).pos p) := by
    rw [State.pos_setPos_same]; exact ⟨hu.talking, hu.presented, hu.stack⟩
  have hml := hm.latch causeMiss
  unfold State.missAt
  dsimp only
  split
  · exact (hml.becomeClosed hu').latch causeAutoclose
  · exact hml.becomeReady hu' hf

theorem CallsFit.presentationExpires (h : CallsFit due none s) (n : SlotNo) :
    CallsFit due none (s.presentationExpires n) := by
  unfold State.presentationExpires
  split
  · rename_i p _
    split
    · rename_i hc
      simp only [Bool.and_eq_true, decide_eq_true_eq] at hc
      exact ((CallsFit.missAt (h.loosen p).withdraw hc.2).arbitrate).posting s
    · exact h
  · exact h

theorem CallsFit.offerExpires (h : CallsFit due none s) (n : SlotNo) : CallsFit due none (s.offerExpires n) := by
  unfold State.offerExpires
  split
  · split
    · rename_i hc
      simp only [Bool.and_eq_true, State.isEngaged, decide_eq_true_eq] at hc
      exact ((h.withdraw_engaged hc.2).arbitrate).posting s
    · exact h
  · exact h

theorem CallsFit.recallExpiry {d : Disp} (h : CallsFit due none s) (hd : d = .held ∨ d = .extended ∨ d = .camped) :
    CallsFit due none (s.recallExpiry n d) := by
  unfold State.recallExpiry
  split
  · rename_i hc
    rw [h.slotExpires_iff] at hc
    exact ((h.recallSlot_without (hc.1 ▸ hd)).of_without.arbitrate).posting s
  · exact h

theorem CallsFit.wrapUpExpires_without (h : CallsFit due none s) (p : PosNo) :
    CallsFit (withoutDue due (.position p)) none (s.wrapUpExpires p) := by
  have hp := h.positions p
  unfold State.wrapUpExpires
  split
  · rename_i hc
    simp only [Bool.and_eq_true, decide_eq_true_eq] at hc
    have hst := hc.1.2
    exact (((h.loosen p).becomeReady_without (hp.unoccupied (by simp [hst]) (by simp [hst]))
      (fits_ne_closed_fitted h (by simp [hst]))).arbitrate).posting s
  · rename_i hc
    refine h.notDue_position fun hdue => hc ?_
    have hst : (s.pos p).state = .wrapup := by
      by_contra hne
      rw [hp.fields.2.2.1 hne] at hdue
      simp at hdue
    simpa [h.seq, hst, State.expired] using (expiredAt_iff hp.deadline.1).2 hdue

theorem CallsFit.lapsePosition (h : CallsFit due none s) (p : PosNo) : CallsFit due none (s.lapsePosition p) := by
  unfold State.lapsePosition
  split
  · rename_i hst
    have hf : p.val < (s.withdraw p).fitted := by
      rw [State.fitted, (kept_withdraw s p).straps]
      exact fits_ne_closed_fitted h (p := p) (by simp [hst])
    exact (h.loosen p).withdraw.becomeReady (h.unoccupied_withdraw (by simp [hst])) hf
  · rename_i hst; exact h.withdraw_engaged hst
  · exact h

/-- A lapse leaves supervision off (R123). -/
theorem CallsFit.lapse_without (h : CallsFit due none s) : CallsFit (withoutDue due .supervision) none s.lapse := by
  have hoff : CallsFit due none { s with supervision := none, actual := .lapsed } :=
    { h with supervised := deadlineAhead_none _ _, supervision_day := fun k => by simp at k }
  have hoff := hoff.notDue_supervision (by simp)
  exact (hoff.foldPositions (f := State.lapsePosition) (fun _ p k => k.lapsePosition p) allPositions).of_callPart rfl

theorem CallsFit.supervisionExpires_without (h : CallsFit due none s) :
    CallsFit (withoutDue due .supervision) none s.supervisionExpires := by
  unfold State.supervisionExpires
  split
  · exact h.lapse_without.posting s
  · rename_i hc
    refine h.notDue_supervision fun hdue => hc ?_
    have hday := h.supervision_day (by simp [hdue])
    simpa [h.seq, hday, State.expired] using (expiredAt_iff h.supervised.1).2 hdue

/-- The recall expiry that is due takes the deadline with it (R11, R12). -/
theorem CallsFit.recallExpiry_without {d : Disp} (h : CallsFit due none s)
    (hd : d = .held ∨ d = .extended ∨ d = .camped) (hdisp : (s.slot n).disp = d)
    (hdue : (s.slot n).deadline = some s.callTicks) :
    CallsFit (withoutDue due (.slot n)) none (s.recallExpiry n d) := by
  rw [State.recallExpiry, if_pos ((h.slotExpires_iff d).2 ⟨hdisp, hdue⟩)]
  exact ((h.recallSlot_without (hdisp ▸ hd)).arbitrate).posting s

/-- The expiry of a presentation or an offer that is due takes the deadline with it (R89, R90). -/
theorem CallsFit.presentedExpires_without (h : CallsFit due none s) (hdisp : (s.slot n).disp = .presented)
    (hdue : (s.slot n).deadline = some s.callTicks) :
    CallsFit (withoutDue due (.slot n)) none ((s.presentationExpires n).offerExpires n) := by
  obtain ⟨p, hp⟩ := Option.isSome_iff_exists.1 ((h.slots n).placed (by rw [hdisp]; rfl))
  have hpres := (h.linked n p).presented.1 ⟨hdisp, hp⟩
  have hexp := (h.slotExpires_iff .presented).2 ⟨hdisp, hdue⟩
  have hw := (h.loosen p).withdraw_without hpres
  by_cases hst : (s.pos p).state = .presenting
  · have hmiss : s.presentationExpires n = ((s.missAt p).arbitrate).posting s := by
      simp [State.presentationExpires, hp, hexp, hst]
    rw [hmiss]
    exact ((CallsFit.missAt hw hst).arbitrate.posting s).offerExpires n
  · have he : (s.pos p).state = .engaged := by
      by_contra hne
      rw [(h.positions p).fields.2.1 hne hst] at hpres
      simp at hpres
    have hmiss : s.presentationExpires n = s := by simp [State.presentationExpires, hp, hst]
    have hoffer : s.offerExpires n = ((s.withdraw p).arbitrate).posting s := by
      simp [State.offerExpires, hp, hexp, State.isEngaged, he]
    rw [hmiss, hoffer]
    refine (hw.tighten ?_).arbitrate.posting s
    rw [State.pos_withdraw, if_pos rfl]
    exact ⟨fun _ => (h.staffed p (by simp)).1 he, fun k => by simp [he] at k⟩

/-- The slot's deadline is taken, whichever its disposition makes it (R9, R106). -/
theorem CallsFit.slotDue_without (h : CallsFit due none s) (n : SlotNo) :
    CallsFit (withoutDue due (.slot n)) none (s.slotDue n) := by
  by_cases hdue : (s.slot n).deadline = some s.callTicks
  · have hkind := (h.slots n).fields.2.1 (by simp [hdue])
    unfold State.slotDue
    split
    case h_1 hdisp => exact h.presentedExpires_without hdisp hdue
    case h_2 hdisp => exact h.recallExpiry_without (.inl rfl) hdisp hdue
    case h_3 hdisp => exact h.recallExpiry_without (.inr (.inl rfl)) hdisp hdue
    case h_4 hdisp => exact h.recallExpiry_without (.inr (.inr rfl)) hdisp hdue
    case h_5 => simp_all
  · have hn := h.notDue_slot hdue
    unfold State.slotDue
    split
    · exact (hn.presentationExpires n).offerExpires n
    · exact hn.recallExpiry (.inl rfl)
    · exact hn.recallExpiry (.inr (.inl rfl))
    · exact hn.recallExpiry (.inr (.inr rfl))
    · exact hn

/-- Elapsed counts of slots in use may be any (R10, R59). -/
theorem CallsFit.aged {loose : Option PosNo} (h : CallsFit due loose s) (sl : Vector Slot 128)
    (hslot : ∀ m : SlotNo, sl[m] = s.slot m ∨
      ((s.slot m).disp ≠ .free ∧ ∃ e, sl[m] = { s.slot m with elapsed := e })) :
    CallsFit due loose { s with slots := sl } where
  __ := h
  slots m := by
    change SlotFits _ _ sl[m]
    rcases hslot m with e | ⟨hu, c, e⟩
    · rw [e]; exact h.slots m
    · rw [e]; exact (h.slots m).elapsed hu c
  linked m p := by
    change Linked m sl[m] p (s.pos p)
    obtain ⟨h1, h2, h3, h4, h5⟩ := h.linked m p
    rcases hslot m with e | ⟨-, c, e⟩
    · rw [e]; exact h.linked m p
    · rw [e]; exact ⟨h1, h2, h3, h4, h5⟩
  listed := by
    refine ⟨h.listed.1, fun m => (h.listed.2 m).trans ?_⟩
    change _ ↔ sl[m].disp.isListed = true
    rcases hslot m with e | ⟨-, c, e⟩ <;> rw [e]

theorem CallsFit.ageSlot (h : CallsFit due none s) (n : SlotNo) : CallsFit due none (s.ageSlot n) := by
  unfold State.ageSlot
  split
  · rename_i hl
    refine h.aged _ fun m => ?_
    have hm := State.slot_setSlot s n m { s.slot n with elapsed := satInc (s.slot n).elapsed }
    split at hm
    · rename_i e
      subst e
      exact .inr ⟨fun k => by simp [k, Disp.isListed] at hl, _, hm⟩
    · exact .inl hm
  · exact h

theorem CallsFit.ageListed (h : CallsFit due none s) : CallsFit due none s.ageListed := by
  unfold State.ageListed
  generalize s.answerList = l
  induction l generalizing s with
  | nil => exact h
  | cons e l ih => exact ih (h.ageSlot e.slot)

theorem CallsFit.rescore (h : CallsFit due none s) : CallsFit due none s.rescore where
  __ := h
  listed := by
    have hmap : s.rescore.answerList.map Listed.slot = s.answerList.map Listed.slot := by
      simp [State.rescore, Function.comp_def]
    exact ⟨hmap ▸ h.listed.1, fun m => hmap ▸ h.listed.2 m⟩

theorem CallsFit.queueSecond (h : CallsFit due none s) : CallsFit due none s.queueSecond := by
  unfold State.queueSecond
  split
  · have hq : CallsFit due none { s with secondAtQueue := false } := h.of_callPart rfl
    exact (hq.ageListed.rescore.arbitrate).posting s
  · exact h

theorem CallsFit.slotSecond (h : CallsFit due none s) : CallsFit due none s.slotSecond := by
  unfold State.slotSecond
  split
  · refine CallsFit.of_callPart (h.aged (mapVec Slot.aged s.slots) fun m => ?_) rfl
    rw [mapVec_get]
    change (s.slot m).aged = _ ∨ _ ∧ ∃ e, (s.slot m).aged = _
    unfold Slot.aged
    split
    · rename_i ha
      exact .inr ⟨fun k => by simp [k, Disp.agesAtSlot] at ha, _, rfl⟩
    · exact .inl rfl
  · exact h

/-! The call tick (R101, R106). -/

/-- Once each slot of `l` has had its turn, none of their deadlines is due. -/
theorem CallsFit.foldSlotDue (l : List SlotNo) (h : CallsFit due none s) :
    CallsFit (fun o => due o ∧ ∀ n ∈ l, o ≠ .slot n) none (l.foldl State.slotDue s) := by
  induction l generalizing due s with
  | nil => exact h.mono fun o k => ⟨k, by simp⟩
  | cons n l ih =>
    exact (ih (h.slotDue_without n)).mono fun o ⟨⟨hd, hn⟩, hl⟩ =>
      ⟨hd, fun m hm => (List.mem_cons.1 hm).elim (fun e => e ▸ hn) (hl m)⟩

theorem CallsFit.foldWrapUpExpires (l : List PosNo) (h : CallsFit due none s) :
    CallsFit (fun o => due o ∧ ∀ p ∈ l, o ≠ .position p) none (l.foldl State.wrapUpExpires s) := by
  induction l generalizing due s with
  | nil => exact h.mono fun o k => ⟨k, by simp⟩
  | cons p l ih =>
    exact (ih (h.wrapUpExpires_without p)).mono fun o ⟨⟨hd, hp⟩, hl⟩ =>
      ⟨hd, fun q hq => (List.mem_cons.1 hq).elim (fun e => e ▸ hp) (hl q)⟩

/-- When what is due has been taken, no deadline has come (R106). -/
theorem CallsFit.takeDue (h : CallsFit due none s) : CallsFit (fun _ => False) none s.takeDue := by
  have hexpired := ((h.foldSlotDue allSlots).foldWrapUpExpires allPositions).supervisionExpires_without
  refine hexpired.queueSecond.slotSecond.mono ?_
  rintro o ⟨⟨⟨-, hslot⟩, hpos⟩, hsup⟩
  cases o with
  | slot n => exact hslot n (List.mem_finRange n) rfl
  | position p => exact hpos p (by fin_cases p <;> decide) rfl
  | supervision => exact hsup rfl

/-- The counters step past no deadline. -/
theorem CallsFit.tick (h : CallsFit (fun _ => False) none s) : CallsFit anyDue none s.tick where
  seq := h.seq
  stage := h.stage
  slots n := { h.slots n with deadline := ⟨(h.slots n).deadline.notBehind_next, fun _ => trivial⟩ }
  positions p := { h.positions p with deadline := ⟨(h.positions p).deadline.notBehind_next, fun _ => trivial⟩ }
  staffed := h.staffed
  linked := h.linked
  ready := h.ready
  listed := h.listed
  supervised := ⟨h.supervised.notBehind_next, fun _ => trivial⟩
  supervision_day := h.supervision_day

theorem CallsFit.callTick (h : CallsFit due none s) : CallsFit anyDue none s.callTick := h.takeDue.tick

end
end Sys2Proof.Machine
end

section
/-! PROOFS. Window writes, and the invariant before RUN. -/

namespace Sys2Proof.Machine

open Sys2Proof.Safety

section
variable {due : TimerOwner → Prop} {s t : State} {n : SlotNo} {p : PosNo} {v : Slot} {x : Position}

/-! Window writes (R147). -/

theorem CallsFit.raiseFault (h : CallsFit due none s) (f : FaultEntry) : CallsFit due none (s.raiseFault f) := by
  unfold State.raiseFault
  split <;> exact h.of_callPart rfl

theorem CallsFit.lineEffect (h : CallsFit due none s) (txn : Txn) (r : Reached) (n : SlotNo) :
    CallsFit due none (s.lineEffect txn r n).state := by
  unfold State.lineEffect
  dsimp only [State.commandEffect]
  split
  · exact h.lineEvent n _ _
  · exact h.raiseFault _

theorem CallsFit.settingEffect (h : CallsFit due none s) (txn : Txn) (r : Reached) (w : SettingWord) :
    CallsFit due none (s.settingEffect txn r w).state := by
  have hs : ∀ u : Settings, CallsFit due none { s with settings := u } := fun u => h.of_callPart rfl
  unfold State.settingEffect
  dsimp only
  split
  · exact (hs _).takeMode _
  · exact hs _

theorem CallsFit.acknowledge (h : CallsFit due none s) (c : BitVec 8) : CallsFit due none (s.acknowledge c) := by
  unfold State.acknowledge
  dsimp only
  split <;> exact h.of_callPart rfl

theorem CallsFit.rightfulEffect (h : CallsFit due none s) (txn : Txn) (r : Reached) :
    CallsFit due none (s.rightfulEffect txn r).state := by
  unfold State.rightfulEffect
  split
  · exact h.raiseFault _
  · split
    · exact h.acknowledge _
    · exact h.actionEvent _ _ _
    · exact h.lineEffect _ _ _
    · exact h.controlEvent _ _
    · exact h.takeHeartbeat
    · unfold State.restartEffect; split <;> exact h
    · exact h.settingEffect _ _ _
    · exact h.of_callPart rfl
    · exact h.of_callPart rfl
    · unfold State.viewEffect; split <;> exact h
    · exact h

theorem CallsFit.writeEffect (h : CallsFit due none s) (txn : Txn) (r : Reached) :
    CallsFit due none (s.writeEffect txn r).state := by
  unfold State.writeEffect
  split
  · exact h.rightfulEffect txn r
  · unfold State.strayEffect
    dsimp only
    split <;> exact h.raiseFault _

theorem callPart_postingExcept (s before : State) (off : Offset) :
    (s.postingExcept before off).callPart = s.callPart := by
  obtain ⟨posts, owed, h, -⟩ := givePosts_spec (s.dropPost off)
    ((changedPosts before s).filter fun g => decide (g.offset ≠ off))
    ((changedPosts_nodup before s).sublist (List.filter_sublist.map _))
  rw [State.postingExcept, h]; rfl

/-! The invariant in RUN and before it. -/

theorem thresholdOf_iff {sc tc : Option Class} :
    ThresholdOf sc tc ↔ ∃ c : Class, sc = some c ∧ tc = some (if c = 7 then 7 else c + 1) := by
  simp only [ThresholdOf, thresholdFor, satInc_three]

/-- In RUN the records fit exactly when the owners of call state agree. -/
theorem CallsFit.agrees (h : CallsFit anyDue none s) : CallStateAgrees s := by
  refine ⟨⟨fun n => (h.slots n).fields, fun p => (h.positions p).fields⟩, h.ready, h.listed,
    fun p => h.staffed p (by simp), ⟨fun n p => (h.linked n p).talking, fun n p => (h.linked n p).presented,
      fun n p => (h.linked n p).split.trans (by simp [List.mem_map]), fun p => (h.positions p).stack_nodup,
      fun n hd => (h.slots n).placed ?_⟩,
    ⟨iff_of_true h.seq h.stage, fun k => absurd h.seq k, ?_⟩, fun n => (h.slots n).home,
    fun p => ⟨fun n he ht => thresholdOf_iff.1 ((h.linked n p).threshold he ht),
      fun e he => thresholdOf_iff.1 ((h.linked e.slot p).saved e he rfl)⟩,
    fun p => (h.positions p).unfitted,
    ⟨fun n => (h.slots n).deadline.1, fun p => (h.positions p).deadline.1, h.supervised.1, h.supervision_day,
      fun k => absurd h.seq k⟩⟩
  · rcases hd with hd | hd | hd <;> rw [hd] <;> rfl
  · rw [h.stage]; trivial

theorem CallsFit.agrees_of (h : CallsFit anyDue none s) (e : t.callPart = s.callPart) : CallStateAgrees t :=
  (h.of_callPart e).agrees

theorem fits_of_agrees (h : CallStateAgrees s) (hr : s.seq = .run) : CallsFit anyDue none s := by
  obtain ⟨⟨hslot, hposn⟩, hready, hlist, hstaffed, ⟨ht, hp, hs, hnodup, hplaced⟩, ⟨hrun, -, -⟩, hhome, hthr, hunfit,
    ⟨hdl, hwrap, hsup, hday, -⟩⟩ := h
  exact {
    seq := hr
    stage := hrun.1 hr
    slots := fun n => ⟨hslot n, hhome n,
      fun k => hplaced n (by cases hd : (s.slot n).disp <;> simp_all [Disp.isSeated]), hdl n, fun _ => trivial⟩
    positions := fun p => ⟨hposn p, hnodup p, hunfit p, hwrap p, fun _ => trivial⟩
    staffed := fun p _ => hstaffed p
    linked := fun n p => ⟨ht n p, hp n p, (hs n p).trans (by simp [List.mem_map]),
      fun he htn => thresholdOf_iff.2 ((hthr p).1 n he htn),
      fun e hin hn => thresholdOf_iff.2 (hn ▸ (hthr p).2 e hin)⟩
    ready := hready
    listed := hlist
    supervised := ⟨hsup, fun _ => trivial⟩
    supervision_day := hday }

/-- A slot record the sweep may have made: away from the positions and with no deadline (R102, R193). -/
structure SlotStarts (sl : Slot) : Prop where
  fields : SlotFieldsFit sl
  home : HomeFits sl
  unseated : sl.disp.isSeated = false
  deadline : sl.deadline = none

/-- Before RUN: the positions at their reset values, nothing posted, owed, held or armed (R102, R191 to R195). -/
structure Starting (s : State) : Prop where
  seq : s.seq ≠ .run
  stage : s.stage ≠ .running
  slots : ∀ n, SlotStarts (s.slot n)
  positions : ∀ p, s.pos p = Position.empty
  ready : s.readyList = []
  listed : ListFollows s
  posts : s.posts = []
  owed : s.owed = []
  held : s.held = none
  nightPending : s.nightPending = false
  supervision : s.supervision = none
  secondAtQueue : s.secondAtQueue = false
  secondAtSlots : s.secondAtSlots = false

/-- The slots the sequencer has not come to are FREE (R191 to R193). -/
structure StageFits (s : State) : Prop where
  early : (s.stage = .opening ∨ (∃ n, s.stage = .filling n) ∨ ∃ k, s.stage = .settings k) →
    s.answerList = [] ∧ ∀ n, s.slot n = Slot.empty
  adopting : ∀ n, s.stage = .adopting n → ∀ m, n ≤ m → s.slot m = Slot.empty

theorem Starting.agrees (h : Starting s) (hst : StageFits s) : CallStateAgrees s := by
  have hpos := h.positions
  have hseat : ∀ (n : SlotNo) (d : Disp), d.isSeated = true → (s.slot n).disp ≠ d := fun n d hd e => by
    have := (h.slots n).unseated
    rw [e, hd] at this
    simp at this
  refine ⟨⟨fun n => (h.slots n).fields, fun p => ?_⟩, ?_, h.listed, fun p => ?_, ⟨fun n p => ?_, fun n p => ?_,
      fun n p => ?_, fun p => ?_, fun n hd => ?_⟩,
    ⟨iff_of_false h.seq h.stage, fun _ => ⟨h.ready, hpos, h.posts, h.owed, h.held, h.nightPending⟩, ?_⟩,
    fun n => (h.slots n).home, fun p => ?_, fun p _ => hpos p,
    ⟨fun n => ?_, fun p => ?_, ?_, fun k => ?_,
      fun _ => ⟨fun n => (h.slots n).deadline, h.supervision, h.secondAtQueue, h.secondAtSlots⟩⟩⟩
  · rw [hpos]; simp [PositionFieldsFit, Position.empty]
  · simp [ReadyListExact, h.ready, hpos, Position.empty]
  · rw [hpos]; simp [Position.empty]
  · rw [hpos]; exact iff_of_false (fun k => hseat n _ rfl k.1) (by simp [Position.empty])
  · rw [hpos]; exact iff_of_false (fun k => hseat n _ rfl k.1) (by simp [Position.empty])
  · rw [hpos]; exact iff_of_false (fun k => hseat n _ rfl k.1) (by simp [Position.empty])
  · rw [hpos]; simp [Position.empty]
  · rcases hd with hd | hd | hd <;> exact absurd hd (hseat n _ rfl)
  · obtain ⟨h1, h2⟩ := hst
    cases hs : s.stage <;> simp_all
  · rw [hpos]; simp [Position.empty]
  · rw [(h.slots n).deadline]; exact (deadlineAhead_none True _).1
  · rw [hpos]; exact (deadlineAhead_none True _).1
  · rw [h.supervision]; exact (deadlineAhead_none True _).1
  · simp [h.supervision] at k

theorem starting_of_agrees (h : CallStateAgrees s) (hr : s.seq ≠ .run) : Starting s ∧ StageFits s := by
  obtain ⟨⟨hslot, -⟩, -, hlist, -, ⟨ht, hp, hs, -, hplaced⟩, ⟨hrun, hidle, hstage⟩, hhome, -, -,
    ⟨-, -, -, -, hoff⟩⟩ := h
  obtain ⟨hready, hpos, hposts, howed, hheld, hnight⟩ := hidle hr
  obtain ⟨hdl, hsup, hq, hsl⟩ := hoff hr
  have hun : ∀ n, (s.slot n).disp.isSeated = false := by
    intro n
    by_contra hk
    have hd : (s.slot n).disp = .talking ∨ (s.slot n).disp = .presented ∨ (s.slot n).disp = .split := by
      cases hd : (s.slot n).disp <;> simp_all [Disp.isSeated]
    obtain ⟨p, hpn⟩ := Option.isSome_iff_exists.1 (hplaced n hd)
    rcases hd with hd | hd | hd
    · simpa [hpos, Position.empty] using (ht n p).1 ⟨hd, hpn⟩
    · simpa [hpos, Position.empty] using (hp n p).1 ⟨hd, hpn⟩
    · simpa [hpos, Position.empty] using (hs n p).1 ⟨hd, hpn⟩
  refine ⟨⟨hr, hrun.not.1 hr, fun n => ⟨hslot n, hhome n, hun n, hdl n⟩, hpos, hready, hlist, hposts, howed, hheld,
    hnight, hsup, hq, hsl⟩, fun k => ?_, fun n k => ?_⟩
  · rcases k with k | ⟨_, k⟩ | ⟨_, k⟩ <;> rw [k] at hstage <;> exact hstage
  · rw [k] at hstage; exact hstage

end
end Sys2Proof.Machine
end

section
/-! PROOFS. Every step keeps call state agreeing. -/

namespace Sys2Proof.Machine

open Sys2Proof.Safety

section
variable {due : TimerOwner → Prop} {s t : State} {n : SlotNo} {p : PosNo} {v : Slot} {x : Position}

/-! The C-side bus. -/

/-- Every reset leaves the owners at their reset values (R189). -/
theorem agrees_resetBlocks (s : State) (cause : ResetCause) {phase : Seq} (hp : phase ≠ .run) :
    CallStateAgrees (s.resetBlocks cause phase) := by
  have hslot : ∀ n, (s.resetBlocks cause phase).slot n = Slot.empty := fun n => by
    simp [State.resetBlocks, State.reset, State.slot]
  have hpos : ∀ p, (s.resetBlocks cause phase).pos p = Position.empty := fun p => by
    simp [State.resetBlocks, State.reset, State.pos]
  have hempty := slotFits_empty False 0
  have h : Starting (s.resetBlocks cause phase) :=
    { seq := hp, stage := by simp [State.resetBlocks, State.reset]
      slots := fun n => by rw [hslot]; exact ⟨hempty.fields, hempty.home, rfl, rfl⟩
      positions := hpos, ready := rfl
      listed := ⟨List.nodup_nil, fun n => by
        rw [hslot]; simp [State.resetBlocks, State.reset, Slot.empty, Disp.isListed]⟩
      posts := rfl, owed := rfl, held := rfl, nightPending := rfl, supervision := rfl, secondAtQueue := rfl
      secondAtSlots := rfl }
  exact h.agrees ⟨fun _ => ⟨rfl, hslot⟩, fun n k => by simp [State.resetBlocks, State.reset] at k⟩

theorem agrees_perform (h : CallStateAgrees s) (a : Access) : CallStateAgrees (s.perform a) := by
  cases a with
  | nothing => exact h
  | write addr lanes data => exact h
  | restart addr data => exact agrees_resetBlocks _ _ (by decide)
  | read addr off => exact h

/-- Issues are owed in RUN alone (R172). -/
theorem run_of_owed (h : CallStateAgrees s) (ho : s.owed ≠ []) : s.seq = .run := by
  by_contra hr
  exact ho (starting_of_agrees h hr).1.owed

theorem agrees_complete (h : CallStateAgrees s) (txn : Txn) (b : List Post) (a : Access) :
    CallStateAgrees (s.complete txn b a) := by
  unfold State.complete
  split
  · exact agrees_perform h a
  · rename_i ho
    have hr := run_of_owed h fun k => ho (by simp [k])
    exact (fits_of_agrees h hr).agrees_of rfl

theorem agrees_finishWrite (h : CallsFit anyDue none s) (before : State) (txn : Txn) (lock : Option Lock)
    {e : WriteEffect} (he : e.state = s) : CallStateAgrees (State.finishWrite before txn lock e) := by
  have hl : CallsFit anyDue none { e.state with lock := lock } := he ▸ h.of_callPart rfl
  unfold State.finishWrite
  refine agrees_complete (CallsFit.agrees ?_) _ _ _
  split
  · exact hl.of_callPart (callPart_postingExcept _ _ _)
  · exact hl.posting _

theorem agrees_takeWindow (h : CallStateAgrees s) (hr : s.seq = .run) (txn : Txn) (off : Offset) :
    CallStateAgrees (s.takeWindow txn off) := by
  unfold State.takeWindow
  dsimp only
  split
  · exact agrees_finishWrite ((fits_of_agrees h hr).writeEffect txn _) _ _ _ rfl
  · refine agrees_complete ?_ _ _ _
    exact (fits_of_agrees h hr).agrees_of rfl

theorem agrees_take (h : CallStateAgrees s) (txn : Txn) : CallStateAgrees (s.take txn) := by
  unfold State.take
  split
  · exact agrees_complete h _ _ _
  · split
    · rename_i hr; exact agrees_takeWindow h hr txn _
    · exact h

theorem agrees_arrive (h : CallStateAgrees s) (txn : Txn) : CallStateAgrees (s.arrive txn) := by
  unfold State.arrive
  split
  · exact h
  · exact agrees_take h txn

theorem agrees_resumeBus (h : CallStateAgrees s) : CallStateAgrees s.resumeBus := by
  have fold : ∀ (l : List Txn) (u : State), CallStateAgrees u → CallStateAgrees (l.foldl State.arrive u) := by
    intro l
    induction l with
    | nil => exact fun _ hu => hu
    | cons txn l ih => exact fun u hu => ih _ (agrees_arrive hu txn)
  exact fold s.bus _ h

theorem agrees_issueOwed (h : CallStateAgrees s) : CallStateAgrees s.issueOwed := by
  unfold State.issueOwed
  split
  · exact h
  · rename_i e rest ho
    have hf := fits_of_agrees h (run_of_owed h (by simp [ho]))
    dsimp only
    split
    · exact hf.agrees_of rfl
    · split
      · refine agrees_resumeBus (agrees_perform ?_ _)
        exact hf.agrees_of rfl
      · exact hf.agrees_of rfl

theorem agrees_issuePost (h : CallStateAgrees s) : CallStateAgrees s.issuePost := by
  unfold State.issuePost
  split
  · rename_i hc
    simp only [Bool.and_eq_true, decide_eq_true_eq] at hc
    split
    · exact (fits_of_agrees h hc.1.1).agrees_of rfl
    · exact h
  · exact h

theorem agrees_resetFromPin (s : State) (cause : ResetCause) {phase : Seq} (hp : phase ≠ .run) :
    CallStateAgrees (s.resetFromPin cause phase) :=
  agrees_resumeBus (agrees_resetBlocks _ _ hp)

/-! The Start-Up Sequencer (chapter 12). -/

/-- A stage other than `running` is one of FILL or SWEEP. -/
theorem starting_of_stage (h : CallStateAgrees s) (hst : s.stage ≠ .running) :
    Starting s ∧ StageFits s := by
  refine starting_of_agrees h fun hr => hst ?_
  exact (fits_of_agrees h hr).stage

theorem agrees_openingStep (h : CallStateAgrees s) : CallStateAgrees s.openingStep := by
  unfold State.openingStep
  split
  · rename_i hst
    obtain ⟨hs, hf⟩ := starting_of_stage h (by simp [hst])
    have hempty := hf.early (.inl hst)
    exact Starting.agrees { hs with stage := by dsimp only; split <;> simp }
      ⟨fun _ => hempty, fun n _ m _ => hempty.2 m⟩
  · exact h

theorem agrees_fillStep (h : CallStateAgrees s) : CallStateAgrees s.fillStep := by
  unfold State.fillStep
  split
  · rename_i n hst
    obtain ⟨hs, hf⟩ := starting_of_stage h (by simp [hst])
    have hempty := hf.early (.inr (.inl ⟨n, hst⟩))
    exact Starting.agrees { hs with stage := by dsimp only; split <;> simp }
      ⟨fun _ => hempty, fun n _ m _ => hempty.2 m⟩
  · exact h

theorem agrees_sweepSettingStep (h : CallStateAgrees s) : CallStateAgrees s.sweepSettingStep := by
  unfold State.sweepSettingStep
  split
  · rename_i k hst
    obtain ⟨hs, hf⟩ := starting_of_stage h (by simp [hst])
    have hempty := hf.early (.inr (.inr ⟨k, hst⟩))
    dsimp only
    split <;>
      exact Starting.agrees { hs with stage := by dsimp only [State.putWord]; split <;> simp }
        ⟨fun _ => hempty, fun n _ m _ => hempty.2 m⟩
  · exact h

/-- The sweep adopts FREE slots, waiting ones and calls away with a home (R193). -/
theorem slotStarts_adopted {w : Word32} {sl : Slot} (h : adoptedSlot w = some sl) : SlotStarts sl := by
  have away : ∀ (d : Disp) (g : GroupNo) (home : Option PosNo) (r : BitVec 3) (f : Bool) (sl : Slot),
      d = .held ∨ d = .extended ∨ d = .camped ∨ d = .recall → adoptedAway d g home r f = some sl → SlotStarts sl := by
    intro d g home r f sl hd hsl
    unfold adoptedAway at hsl
    split at hsl
    · rename_i hh
      rw [← Option.some.inj hsl]
      rcases hd with rfl | rfl | rfl | rfl <;>
        exact ⟨by simp [SlotFieldsFit, Slot.empty], by simpa [HomeFits, Slot.empty] using hh, rfl, rfl⟩
    · simp at hsl
  have offered : ∀ g, SlotStarts (Slot.offered g) := fun g =>
    have hg := slotFits_offered False 0 g
    ⟨hg.fields, hg.home, rfl, rfl⟩
  have hempty := slotFits_empty False 0
  unfold adoptedSlot at h
  split at h
  · split at h
    · unfold adoptedFields at h
      split at h
      · rw [← Option.some.inj h]; exact ⟨hempty.fields, hempty.home, rfl, rfl⟩
      · rw [← Option.some.inj h]; exact offered _
      · split at h
        · rw [← Option.some.inj h]; exact offered _
        · exact away _ _ _ _ _ _ (by simp) h
        · simp at h
      all_goals exact away _ _ _ _ _ _ (by simp) h
    · simp at h
  · simp at h

/-- The slot record the sweep makes of the DISPOSITION word found for slot `n` (R193). -/
def State.sweptSlot (s : State) (n : SlotNo) : Slot :=
  (adoptedSlot (s.mem.readWord (s.addr (slotOffset n 2)))).getD Slot.empty

theorem slotStarts_swept (s : State) (n : SlotNo) : SlotStarts (s.sweptSlot n) := by
  unfold State.sweptSlot
  cases h : adoptedSlot (s.mem.readWord (s.addr (slotOffset n 2))) with
  | none =>
    have hempty := slotFits_empty False 0
    exact ⟨hempty.fields, hempty.home, rfl, rfl⟩
  | some sl => exact slotStarts_adopted h

theorem raiseFault_eq (s : State) (f : FaultEntry) :
    ∃ la fa ov, s.raiseFault f = { s with latched := la, fault := fa, overflow := ov } := by
  unfold State.raiseFault
  split
  · exact ⟨_, _, _, rfl⟩
  · exact ⟨s.latched, s.fault, satInc s.overflow, rfl⟩

/-- The stage after the adoption of slot `n` (R192). -/
def adoptionNext (n : SlotNo) : Stage := if n = 127 then .closing else .adopting (n + 1)

/-- What an adoption does once the slot's record is judged: its place in the list, its word, and the next stage (R193,
R194). -/
def State.endAdoption (j : State) (n : SlotNo) (found : Word32) : State :=
  let listed := if (j.slot n).disp.isWaiting then j.join n else j
  let word := dispositionWord (listed.slot n)
  { (if word = found then listed else listed.putWord (slotOffset n 2) word) with stage := adoptionNext n }

theorem adoptStep_eq_endAdoption (hst : s.stage = .adopting n) : ∃ la fa ov, s.adoptStep =
    ({ s.setSlot n (s.sweptSlot n) with latched := la, fault := fa, overflow := ov } : State).endAdoption n
      (s.mem.readWord (s.addr (slotOffset n 2))) := by
  unfold State.adoptStep State.sweptSlot
  rw [hst]
  dsimp only
  cases adoptedSlot (s.mem.readWord (s.addr (slotOffset n 2))) with
  | some sl => exact ⟨s.latched, s.fault, s.overflow, rfl⟩
  | none =>
    obtain ⟨la, fa, ov, h⟩ := raiseFault_eq (s.setSlot n Slot.empty)
      ⟨.sweepDiscard, none, slotOffset n 2, s.mem.readWord (s.addr (slotOffset n 2))⟩
    refine ⟨la, fa, ov, ?_⟩
    rw [Option.getD_none, ← h]
    rfl

/-- An adoption's end changes the end of the list, memory and the stage. -/
theorem endAdoption_eq {j : State} (hv : j.slot n = v) (found : Word32) : ∃ m, j.endAdoption n found = { j with
    mem := m, stage := adoptionNext n
    answerList := if v.disp.isWaiting then j.answerList ++ [⟨n, j.score n⟩] else j.answerList } := by
  subst hv
  unfold State.endAdoption
  dsimp only
  split <;> split <;> exact ⟨_, rfl⟩

/-- The adoption of slot `n`: its record, its place at the end of the list if it waits, the next stage, and else the
fault record and memory alone (R193, R194). -/
theorem adoptStep_eq (hst : s.stage = .adopting n) : ∃ la fa ov m u, s.adoptStep =
    { s.setSlot n (s.sweptSlot n) with
      latched := la, fault := fa, overflow := ov, mem := m, stage := adoptionNext n
      answerList := if (s.sweptSlot n).disp.isWaiting then s.answerList ++ [⟨n, u⟩] else s.answerList } := by
  obtain ⟨la, fa, ov, heq⟩ := adoptStep_eq_endAdoption hst
  obtain ⟨m, hm⟩ := endAdoption_eq
    (j := { s.setSlot n (s.sweptSlot n) with latched := la, fault := fa, overflow := ov })
    (State.slot_setSlot_same ..) (s.mem.readWord (s.addr (slotOffset n 2)))
  exact ⟨la, fa, ov, m, _, heq.trans hm⟩

/-- The sweep comes to the slots one after the other (R192). -/
theorem adoptionNext_adopting {a b : SlotNo} (h : adoptionNext n = .adopting a) (hb : a ≤ b) : n < b := by
  unfold adoptionNext at h
  split at h
  · simp at h
  · rename_i hn
    have ha : n + 1 = a := by simpa using h
    exact lt_of_lt_of_le (ha ▸ Fin.lt_add_one_iff.2 (Fin.lt_last_iff_ne_last.2 hn)) hb

/-- An adopted slot is listed when it waits. -/
theorem SlotStarts.isListed {sl : Slot} (h : SlotStarts sl) : sl.disp.isListed = sl.disp.isWaiting := by
  have := h.unseated
  cases hd : sl.disp <;> simp_all [Disp.isListed, Disp.isWaiting, Disp.isSeated]

/-- A FREE slot adopted keeps what holds before RUN (R193). -/
theorem Starting.adopted {v : Slot} {u : Score} {la : BitVec 8} {fa : Option FaultEntry} {ov : BitVec 4} {m : Memory}
    (h : Starting s) (hfree : s.slot n = Slot.empty) (hv : SlotStarts v) : Starting { s.setSlot n v with
      latched := la, fault := fa, overflow := ov, mem := m, stage := adoptionNext n
      answerList := if v.disp.isWaiting then s.answerList ++ [⟨n, u⟩] else s.answerList } where
  __ := h
  stage := by dsimp only [adoptionNext]; split <;> simp
  slots a := by
    change SlotStarts ((s.setSlot n v).slot a)
    rw [State.slot_setSlot]
    split
    · exact hv
    · exact h.slots a
  listed := by
    by_cases hw : v.disp.isWaiting = true
    · exact listFollows_joined h.listed (State.slot_setSlot s n · v) (if_pos hw) (by rw [hfree]; rfl)
        (hv.isListed.trans hw)
    · exact listFollows_kept h.listed (State.slot_setSlot s n · v) (if_neg hw)
        (by rw [hv.isListed, hfree]; exact eq_false_of_ne_true hw)

theorem agrees_adoptStep (h : CallStateAgrees s) : CallStateAgrees s.adoptStep := by
  by_cases hst : ∃ n, s.stage = .adopting n
  · obtain ⟨n, hst⟩ := hst
    obtain ⟨hs, hf⟩ := starting_of_stage h (by simp [hst])
    obtain ⟨la, fa, ov, m, u, heq⟩ := adoptStep_eq hst
    rw [heq]
    refine (hs.adopted (hf.adopting n hst n le_rfl) (slotStarts_swept s n)).agrees ⟨fun k => ?_, fun a ha b hb => ?_⟩
    · dsimp only [adoptionNext] at k
      split at k <;> simp at k
    · have hlt := adoptionNext_adopting ha hb
      change (s.setSlot n _).slot b = _
      rw [State.slot_setSlot, if_neg hlt.ne']
      exact hf.adopting n hst b hlt.le
  · have hsame : s.adoptStep = s := by
      unfold State.adoptStep
      split
      · rename_i n hn; exact absurd ⟨n, hn⟩ hst
      · rfl
    rwa [hsame]

/-- `t` is `s` but for what stands in the call store. -/
def DiffersInStore (s t : State) : Prop := ∃ m, t = { s with mem := m }

theorem DiffersInStore.putWord (h : DiffersInStore s t) (off : Offset) (v : Word32) :
    DiffersInStore s (t.putWord off v) := by
  obtain ⟨m, rfl⟩ := h
  exact ⟨_, rfl⟩

theorem DiffersInStore.foldl_putWord (off : PosNo → Offset) (v : PosNo → Word32) (l : List PosNo)
    (h : DiffersInStore s t) : DiffersInStore s (l.foldl (fun u p => u.putWord (off p) (v p)) t) := by
  induction l generalizing t with
  | nil => exact h
  | cons p l ih => exact ih (h.putWord _ _)

/-- The closing writes change the store and the stage (R195). -/
theorem closingStep_eq (hst : s.stage = .closing) : ∃ m, s.closingStep = { s with mem := m, stage := .entering } := by
  unfold State.closingStep
  rw [if_pos hst]
  have hwords := DiffersInStore.foldl_putWord (fun p => blockOffset p 1) (fun _ => statusWord Position.empty none 0)
    allPositions (show DiffersInStore s s from ⟨s.mem, rfl⟩)
  obtain ⟨m, hm⟩ := ((((hwords.putWord 0x014 (faultHeadWord s.fault s.overflow)).putWord 0x015
    (faultOffsetWord s.fault)).putWord 0x016 (faultValueWord s.fault)).putWord 0x011
    (causesWord (s.latched ||| causeStarted))).putWord 0x010
    (modeStatusWord (modeOfService s.requested) s.requested false s.resetCause .run)
  exact ⟨m, congrArg (fun u : State => { u with stage := .entering }) hm⟩

theorem agrees_closingStep (h : CallStateAgrees s) : CallStateAgrees s.closingStep := by
  by_cases hst : s.stage = .closing
  · obtain ⟨hs, -⟩ := starting_of_stage h (by simp [hst])
    obtain ⟨m, hm⟩ := closingStep_eq hst
    rw [hm]
    exact Starting.agrees { hs with stage := by simp } ⟨fun k => by simp at k, fun n k => by simp at k⟩
  · rwa [State.closingStep, if_neg hst]

/-- Entry to RUN arms the recall timer of a call that was adopted away (R102, R195). -/
theorem slotFits_armAdopted (s : State) {sl : Slot} (h : SlotStarts sl) :
    SlotFits True s.callTicks (s.armAdopted sl) ∧ (s.armAdopted sl).disp = sl.disp := by
  have arm : ∀ d, (sl.disp = .held ∨ sl.disp = .extended ∨ sl.disp = .camped) →
      DeadlineAhead True s.callTicks d → SlotFits True s.callTicks { sl with deadline := d } := by
    intro d hd hdl
    obtain ⟨h1, -, h3, h4, h5⟩ := h.fields
    exact ⟨⟨fun k => by rcases hd with hd | hd | hd <;> simp [hd] at k, fun _ => .inr hd, h3, h4, h5⟩, h.home,
      fun k => by simp [h.unseated] at k, hdl⟩
  unfold State.armAdopted
  split
  · rename_i hd; exact ⟨arm _ (.inl hd) (deadlineAhead_armAt _ _ _), rfl⟩
  · rename_i hd; exact ⟨arm _ (.inr (.inl hd)) (deadlineAhead_armAt _ _ _), rfl⟩
  · rename_i hd; exact ⟨arm _ (.inr (.inr hd)) (deadlineAhead_armAt _ _ _), rfl⟩
  · exact ⟨⟨h.fields, h.home, fun k => by simp [h.unseated] at k, h.deadline ▸ deadlineAhead_none _ _⟩, rfl⟩

/-- The state entry to RUN makes of the adopted records, supervision not yet armed (R195). -/
def State.entered (s : State) : State :=
  { s with
    seq := .run
    stage := .running
    slots := mapVec s.armAdopted s.slots
    latched := s.latched ||| causeStarted
    actual := modeOfService s.requested }

theorem enterRun_eq (s : State) :
    s.enterRun = (if s.requested = .day then s.entered.armSupervision else s.entered).arbitrate := by
  unfold State.enterRun
  split <;> rename_i hr
  · rw [if_pos hr]; rfl
  · rw [if_neg (by rw [hr]; decide)]; rfl

theorem Starting.entered (h : Starting s) : CallsFit anyDue none s.entered := by
  have hslot : ∀ n, s.entered.slot n = s.armAdopted (s.slot n) := fun n => mapVec_get ..
  have hpos : ∀ p, s.entered.pos p = Position.empty := h.positions
  have hfits := fun n => slotFits_armAdopted s (h.slots n)
  exact {
    seq := rfl
    stage := rfl
    slots := fun n => by rw [hslot]; exact (hfits n).1
    positions := fun p => by
      rw [hpos]
      exact ⟨by simp [PositionFieldsFit, Position.empty], by simp [Position.empty], fun _ => rfl,
        deadlineAhead_none _ _⟩
    staffed := fun p _ => by rw [hpos]; simp [Staffed, Position.empty]
    linked := fun n p => by
      rw [hslot, hpos]
      exact linked_unseated (by rw [(hfits n).2]; exact (h.slots n).unseated) (by simp [Position.empty])
        (by simp [Position.empty]) (by simp [Position.empty])
    ready := ⟨by rw [show s.entered.readyList = [] from h.ready]; exact List.nodup_nil, fun p => by
      rw [show s.entered.readyList = [] from h.ready, hpos]; simp [Position.empty]⟩
    listed := ⟨h.listed.1, fun n => by rw [hslot, (hfits n).2]; exact h.listed.2 n⟩
    supervised := by
      rw [show s.entered.supervision = none from h.supervision]; exact deadlineAhead_none _ _
    supervision_day := fun k => by
      rw [show s.entered.supervision = none from h.supervision] at k; simp at k }

theorem Starting.enterRun (h : Starting s) : CallsFit anyDue none s.enterRun := by
  have he := h.entered
  rw [enterRun_eq]
  split
  · rename_i hr
    exact (he.armSupervision (congrArg modeOfService hr)).arbitrate
  · exact he.arbitrate

theorem agrees_entryStep (h : CallStateAgrees s) : CallStateAgrees s.entryStep := by
  unfold State.entryStep
  split
  · rename_i hst
    exact agrees_resumeBus (starting_of_stage h (by simp [hst])).1.enterRun.agrees
  · exact h

/-! Ticks and expiries, in RUN and before it. -/

/-- What keeps the records in RUN, and does nothing before RUN, keeps call state agreeing. -/
theorem agrees_of_run {f : State → State} (hrun : ∀ u, CallsFit anyDue none u → CallsFit anyDue none (f u))
    (hidle : s.seq ≠ .run → f s = s) (h : CallStateAgrees s) : CallStateAgrees (f s) := by
  by_cases hr : s.seq = .run
  · exact (hrun s (fits_of_agrees h hr)).agrees
  · rw [hidle hr]; exact h

theorem slotExpires_startUp (h : s.seq ≠ .run) (n : SlotNo) (d : Disp) : s.slotExpires n d = false := by
  simp [State.slotExpires, h]

theorem agrees_callTick (h : CallStateAgrees s) : CallStateAgrees s.callTick := by
  by_cases hr : s.seq = .run
  · exact (fits_of_agrees h hr).callTick.agrees
  · obtain ⟨hs, hf⟩ := starting_of_agrees h hr
    rw [callTick_of_startUp hr]
    exact Starting.agrees { hs with
      secondAtQueue := by simp [State.tick, hr], secondAtSlots := by simp [State.tick, hr] } ⟨hf.early, hf.adopting⟩

theorem agrees_clkref (h : CallStateAgrees s) : CallStateAgrees s.clkref := by
  unfold State.clkref
  split
  · exact h
  · exact agrees_callTick h

/-! The commands and the step. -/

/-- A command that is a transaction on the bus, with the strap levels it brings, is its arrival there. -/
theorem exec_bus (s : State) (c : Instr) {txn : Txn} (h : busTxn s c = some txn) :
    exec c s = .next ({ s with pins := busPins s c }.arrive txn) := by
  cases c <;> simp only [busTxn, Option.some.injEq, reduceCtorEq] at h <;> subst h <;> rfl

theorem agrees_exec (h : CallStateAgrees s) (c : Instr) (he : exec c s = .next t) : CallStateAgrees t := by
  cases hb : busTxn s c with
  | some txn =>
    rw [exec_bus s c hb] at he
    rw [← Host.Outcome.next.inj he]
    exact agrees_arrive (s := { s with pins := busPins s c }) h txn
  | none =>
    cases c <;> simp only [busTxn, reduceCtorEq] at hb <;> rw [← Host.Outcome.next.inj he]
    case powerOnReset => exact agrees_resetFromPin _ _ (by decide)
    case resetN => exact agrees_resetFromPin _ _ (by decide)
    case openingWrite => exact agrees_openingStep h
    case fill => exact agrees_fillStep h
    case sweepSettingRead => exact agrees_sweepSettingStep h
    case adoption => exact agrees_adoptStep h
    case closingWrites => exact agrees_closingStep h
    case entryToRun => exact agrees_entryStep h
    case callTick => exact agrees_callTick h
    case secondTick =>
      exact agrees_of_run (fun _ k => k.queueSecond) (fun hr => by simp [State.queueSecond, hr]) h
    case slotSecondTick =>
      exact agrees_of_run (fun _ k => k.slotSecond) (fun hr => by simp [State.slotSecond, hr]) h
    case presentationExpiry n =>
      exact agrees_of_run (fun _ k => k.presentationExpires n)
        (fun hr => presentationExpires_of_not (slotExpires_startUp hr n _)) h
    case breakInOfferExpiry n =>
      exact agrees_of_run (fun _ k => k.offerExpires n)
        (fun hr => offerExpires_of_not (slotExpires_startUp hr n _)) h
    case holdRecallExpiry n =>
      exact agrees_of_run (f := fun u => u.recallExpiry n .held) (fun _ k => k.recallExpiry (.inl rfl))
        (fun hr => recallExpiry_of_not (slotExpires_startUp hr n _)) h
    case transferRecallExpiry n =>
      exact agrees_of_run (f := fun u => u.recallExpiry n .extended) (fun _ k => k.recallExpiry (.inr (.inl rfl)))
        (fun hr => recallExpiry_of_not (slotExpires_startUp hr n _)) h
    case campRecallExpiry n =>
      exact agrees_of_run (f := fun u => u.recallExpiry n .camped) (fun _ k => k.recallExpiry (.inr (.inr rfl)))
        (fun hr => recallExpiry_of_not (slotExpires_startUp hr n _)) h
    case wrapUpExpiry p =>
      exact agrees_of_run (f := fun u => u.wrapUpExpires p) (fun _ k => (k.wrapUpExpires_without p).of_without)
        (fun hr => by simp [State.wrapUpExpires, hr]) h
    case supervisionExpiry =>
      exact agrees_of_run (fun _ k => k.supervisionExpires_without.of_without)
        (fun hr => by simp [State.supervisionExpires, hr]) h
    case post => exact agrees_issuePost h
    case owedIssue => exact agrees_issueOwed h

end

/-- Settles O9: every command keeps the records fitting in RUN (`CallsFit`) and before it (`Starting`). -/
theorem stepKeepsCallStateAgreeing : Obligations.StepKeepsCallStateAgreeing := by
  intro s t h hstep
  unfold step at hstep
  split at hstep
  · rw [← Host.Outcome.next.inj hstep]
    exact agrees_clkref h
  · rename_i c rest _
    exact agrees_exec (s := { s with pending := rest }) h c hstep

end Sys2Proof.Machine
end

section
/-! PROOFS. Attendant actions: what an action is judged as, and the word a refused one leaves. -/

namespace Sys2Proof.Machine

open Sys2Proof.Safety

section
variable {s : State} {n : SlotNo} {p : PosNo}

/-! The judgement of an action (R30). -/

/-- The code of an action (R199). -/
def Action.code : Action → BitVec 8
  | .answer => 1
  | .hold => 2
  | .swap => 3
  | .extend => 4
  | .release => 5

theorem actionOfCode_code (a : Action) : actionOfCode a.code = some a := by cases a <;> rfl

theorem Action.code_injective : Function.Injective Action.code := by
  intro a b h
  have := congrArg actionOfCode h
  rwa [actionOfCode_code, actionOfCode_code, Option.some.injEq] at this

theorem actionOfCode_unknown {code : BitVec 8} (h : code.toNat = 0 ∨ 5 < code.toNat) : actionOfCode code = none := by
  unfold actionOfCode
  split
  case h_6 => rfl
  all_goals omega

/-- The instruction of an action puts the write that carries its code on the bus. -/
theorem exec_isAction {r : Requester} {path : CallPath} {upper : BitVec 24} {lock : Bool} {c : Instr} {code : BitVec 8}
    (h : IsAction r path upper lock c code) (s : State) :
    ∃ a : Action, code = a.code ∧ exec c s = .next (s.arrive (s.actionTxn r path code upper lock)) := by
  rcases h with ⟨rfl, rfl⟩ | ⟨rfl, rfl⟩ | ⟨rfl, rfl⟩ | ⟨rfl, rfl⟩ | ⟨rfl, rfl⟩
  · exact ⟨.answer, rfl, rfl⟩
  · exact ⟨.hold, rfl, rfl⟩
  · exact ⟨.swap, rfl, rfl⟩
  · exact ⟨.extend, rfl, rfl⟩
  · exact ⟨.release, rfl, rfl⟩

theorem namedPosition_of_names {path : CallPath} {word : Word32} (h : Names s path word p) :
    s.namedPosition (laneOf (actionWord path word) 1) = some p := by
  obtain ⟨hfield, hfit⟩ := h
  have hp := p.isLt
  simp only [State.namedPosition, hfield, hp, Fin.eta, hfit, dite_true, if_true]

theorem namedPosition_unfitted {field : BitVec 8} (h : s.fitted ≤ field.toNat) : s.namedPosition field = none := by
  unfold State.namedPosition
  split
  · rw [if_neg (by simpa [State.isFitted] using h)]
  · rfl

/-- What action `a` of slot `n` does at position `p`, its code and position field having passed (R30, steps 3 to 6). -/
def State.actionAt (s : State) (n : SlotNo) (p : PosNo) : Action → Verdict
  | .answer => s.answerAction n p
  | .hold => s.holdAction n p
  | .swap => s.swapAction n p
  | .extend => s.extendAction n p
  | .release => s.releaseAction n p

theorem actionEvent_unknown (s : State) (n : SlotNo) {code : BitVec 8} (field : BitVec 8)
    (h : code.toNat = 0 ∨ 5 < code.toNat) : s.actionEvent n code field = ⟨s, .refusedCode⟩ := by
  simp only [State.actionEvent, actionOfCode_unknown h]

theorem actionEvent_unfitted (n : SlotNo) (a : Action) {field : BitVec 8} (h : s.fitted ≤ field.toNat) :
    s.actionEvent n a.code field = ⟨s, .refusedPosition⟩ := by
  simp only [State.actionEvent, actionOfCode_code, namedPosition_unfitted h]

theorem actionEvent_named (n : SlotNo) (a : Action) {path : CallPath} {word : Word32} (h : Names s path word p) :
    s.actionEvent n a.code (laneOf (actionWord path word) 1) = s.actionAt n p a := by
  simp only [State.actionEvent, actionOfCode_code, namedPosition_of_names h]
  cases a <;> rfl

theorem isAnswerable_iff (d : Disp) :
    d.isAnswerable = true ↔ d = .queued ∨ d = .recall ∨ d = .presented ∨ d = .held := by
  cases d <;> simp [Disp.isAnswerable]

theorem answerAction_elsewhere (h : ¬(s.slot n).disp.isAnswerable = true) :
    s.answerAction n p = ⟨s, .refusedState⟩ := by rw [State.answerAction, if_neg h]

theorem answerAction_closed (ha : (s.slot n).disp.isAnswerable = true) (hc : (s.pos p).state = .closed) :
    s.answerAction n p = ⟨s, .refusedClosed⟩ := by rw [State.answerAction, if_pos ha, if_pos hc]

theorem answerAction_full (ha : (s.slot n).disp.isAnswerable = true) (he : (s.pos p).state = .engaged)
    (hfull : Config.stackDepth ≤ (s.pos p).stack.length) : s.answerAction n p = ⟨s, .refusedStack⟩ := by
  simp [State.answerAction, ha, State.isEngaged, he, hfull]

theorem answerAction_room (ha : (s.slot n).disp.isAnswerable = true) (he : (s.pos p).state = .engaged)
    (hroom : (s.pos p).stack.length < Config.stackDepth) : s.answerAction n p = ⟨s.answerTaken n p, .taken⟩ := by
  simp [State.answerAction, ha, State.isEngaged, he, Nat.not_le.2 hroom]

theorem judgeTalking_state (p : PosNo) (h : (s.slot n).disp ≠ .talking) :
    s.judgeTalking n p = some .refusedState := by rw [State.judgeTalking, if_neg h]

theorem judgeTalking_position (hd : (s.slot n).disp = .talking) (hp : (s.slot n).position ≠ some p) :
    s.judgeTalking n p = some .refusedPosition := by rw [State.judgeTalking, if_pos hd, if_neg hp]

theorem judgeTalking_here (hd : (s.slot n).disp = .talking) (hp : (s.slot n).position = some p) :
    s.judgeTalking n p = none := by rw [State.judgeTalking, if_pos hd, if_pos hp]

/-- Every action but ANSWER, and but RELEASE of a HELD call, is refused as `judgeTalking` says (R30, steps 3 and 4). -/
theorem actionAt_refused {a : Action} {res : Result} (ha : a ≠ .answer)
    (hheld : (s.slot n).disp = .held → a ≠ .release) (hj : s.judgeTalking n p = some res) :
    s.actionAt n p a = ⟨s, res⟩ := by
  cases a with
  | answer => exact absurd rfl ha
  | hold => simp only [State.actionAt, State.holdAction, hj]
  | swap => simp only [State.actionAt, State.swapAction, hj]
  | extend => simp only [State.actionAt, State.extendAction, hj]
  | release => simp only [State.actionAt, State.releaseAction, if_neg fun h => hheld h rfl, hj]

theorem swapAction_empty (hd : (s.slot n).disp = .talking) (hp : (s.slot n).position = some p)
    (hst : (s.pos p).stack = []) : s.swapAction n p = ⟨s, .refusedStack⟩ := by
  simp only [State.swapAction, judgeTalking_here hd hp, hst]

/-! The refusals (R31, R161). -/

/-- The instruction `i` changes no owner and posts nothing, and `data` is written whole at `off`. -/
def WriteRefused (s : State) (i : Instr) (txn : Txn) (off : Offset) (data : Word32) : Prop :=
  ∃ t, exec i s = .next t ∧ t.posts = s.posts ∧ t.owed = s.owed ∧ WriteDone s s t txn off fullLanes data

/-- An ACTION write through any path whose action is refused. -/
theorem action_refused (hs : Serving s) {r : Requester} (hr : actsForConsole r = true) {path : CallPath}
    (hp : PathReaches s path n) {data : Word32} {lock : Bool} {i : Instr}
    (hi : exec i s = .next (s.arrive (s.writeTxn r (pathOffset path 0) fullLanes data lock))) {res : Result}
    (he : s.actionEvent n (laneOf data 0) (laneOf (actionWord path data) 1) = ⟨s, res⟩) :
    WriteRefused s i (s.writeTxn r (pathOffset path 0) fullLanes data lock) (slotOffset n 0)
      (setLane3 (actionWord path data) res.code) := by
  obtain ⟨hdone, hposts⟩ := action_done hs hr hp data lock s res he
  exact ⟨_, hi, (hposts rfl).1, (hposts rfl).2, hdone⟩

/-- View word 8 of a position with no current slot stands for itself (R161). -/
theorem reach_view_none (h : s.currentSlot p = none) :
    s.reach (blockOffset p 8) = ⟨blockOffset p 8, .view p 0, none⟩ := by
  simp [State.reach, h]

/-- A full-word write to view word 8 of a position with no current slot is no action (R161). -/
theorem viewAction_refused (hs : Serving s) {r : Requester} (hr : actsForConsole r = true)
    (h : s.currentSlot p = none) (data : Word32) (lock : Bool) :
    WriteRefused s (.viewActionNoCall r p data lock) (s.writeTxn r (blockOffset p 8) fullLanes data lock)
      (blockOffset p 8) (setLane3 data Result.refusedNoCall.code) := by
  refine ⟨_, rfl, arrive_refused hs r (blockOffset p 8) (blockOffset p 8) fullLanes fullLanes data _ lock ?_ ?_⟩
  · rw [reach_view_none h]
  · have hw : mayWrite (.view p 0) r = true := hr
    simp only [reach_view_none h, State.writeEffect, requesterOf_writeTxn, hw, if_true]
    rfl

/-- Settles O33: each refusal is one case of the judgement, and `action_refused` says what a refused write leaves. -/
theorem refusedActionsChangeNothing : Obligations.RefusedActionsChangeNothing := by
  refine ⟨fun s r path upper data lock n c code hs hr hp hc => ?_, fun s r p data lock hs hr h =>
    viewAction_refused hs hr h data lock⟩
  intro refused field answers
  obtain ⟨a, rfl, hexec⟩ := exec_isAction hc s
  have hlane : laneOf (upper ++ a.code) 0 = a.code := laneOf_zero upper a.code
  have refuse {res : Result}
      (he : s.actionEvent n a.code (laneOf (actionWord path (upper ++ a.code)) 1) = ⟨s, res⟩) :
      refused c (s.actionTxn r path a.code upper lock) (upper ++ a.code) res :=
    action_refused hs hr hp hexec (by rw [hlane]; exact he)
  have is_answer (h : answers) : a = .answer := Action.code_injective h
  refine ⟨fun h => action_refused hs hr hp rfl (actionEvent_unknown s n _ h),
    fun h => refuse (actionEvent_unfitted n a h), fun p hn => ?_⟩
  have refuseAt {res : Result} (he : s.actionAt n p a = ⟨s, res⟩) :
      refused c (s.actionTxn r path a.code upper lock) (upper ++ a.code) res :=
    refuse ((actionEvent_named n a hn).trans he)
  refine ⟨fun h hq hrec hpres hheld => refuseAt ?_, fun h ha hst => refuseAt ?_, fun h ha he hfull => refuseAt ?_,
    fun h hd hheld => refuseAt ?_, fun h hd hpos => refuseAt ?_, fun h hd hpos hst => refuseAt ?_⟩
  · rw [is_answer h]
    exact answerAction_elsewhere (by simp [isAnswerable_iff, hq, hrec, hpres, hheld])
  · rw [is_answer h]
    exact answerAction_closed ha hst
  · rw [is_answer h]
    exact answerAction_full ha he hfull
  · exact actionAt_refused (fun k => h (congrArg Action.code k)) (fun k ka => hheld k (congrArg Action.code ka))
      (judgeTalking_state p hd)
  · exact actionAt_refused (fun k => h (congrArg Action.code k)) (fun k => by simp [hd] at k)
      (judgeTalking_position hd hpos)
  · have hswap : a = .swap := Action.code_injective h
    rw [hswap]
    exact swapAction_empty hd hpos hst

end
end Sys2Proof.Machine
end

section
/-! PROOFS. ANSWER: the presentations it ends, and the push at an ENGAGED position. -/

namespace Sys2Proof.Machine

open Sys2Proof.Safety

section
variable {s : State} {n m : SlotNo} {p : PosNo}

/-! The presentations that end (R34). -/

/-- Only position records and the ready list show that a presentation has ended elsewhere (R34). -/
theorem endElsewhere_records (s : State) (n : SlotNo) (p : PosNo) :
    ∃ ps rl, s.endElsewhere n p = { s with positions := ps, readyList := rl } := by
  unfold State.endElsewhere
  split
  · split
    · exact ⟨_, _, rfl⟩
    · unfold State.releasePresenter
      split
      · exact ⟨_, _, rfl⟩
      · exact ⟨_, _, rfl⟩
  · exact ⟨_, _, rfl⟩

theorem slots_endElsewhere (s : State) (n : SlotNo) (p : PosNo) : (s.endElsewhere n p).slots = s.slots := by
  obtain ⟨ps, rl, h⟩ := endElsewhere_records s n p
  rw [h]

theorem slot_endElsewhere (s : State) (n m : SlotNo) (p : PosNo) : (s.endElsewhere n p).slot m = s.slot m := by
  rw [State.slot, slots_endElsewhere]; rfl

theorem counters_endElsewhere (s : State) (n : SlotNo) (p : PosNo) : (s.endElsewhere n p).counters = s.counters := by
  obtain ⟨ps, rl, h⟩ := endElsewhere_records s n p
  rw [h]

/-- The acting position is none of those a presentation ends at elsewhere. -/
theorem pos_endElsewhere (s : State) (n : SlotNo) (p : PosNo) : (s.endElsewhere n p).pos p = s.pos p := by
  unfold State.endElsewhere
  split
  · split
    · rfl
    · rename_i hop
      rw [State.pos_releasePresenter, if_neg (Ne.symm hop)]
  · rfl

/-- Nothing stands in the way at the acting position unless it is PRESENTING another call. -/
theorem clearForAnswer_own (h : (s.pos p).state ≠ .presenting ∨ (s.pos p).presented = some n) :
    s.clearForAnswer n p = s.endElsewhere n p := by
  rw [State.clearForAnswer, if_neg]
  simpa [imp_iff_not_or] using h

theorem clearForAnswer_other (hst : (s.pos p).state = .presenting) (hm : (s.pos p).presented = some m) (hmn : m ≠ n) :
    s.clearForAnswer n p = (s.endElsewhere n p).withdraw p := by
  rw [State.clearForAnswer, if_pos]
  simp [hst, hm, hmn]

theorem endElsewhere_presented {o : PosNo} (hd : (s.slot n).disp = .presented) (ho : (s.slot n).position = some o) :
    s.endElsewhere n p = if o = p then s else s.releasePresenter o := by
  simp only [State.endElsewhere, hd, ho]

theorem endElsewhere_not_presented
    (h : ∀ o, (s.slot n).disp = .presented → (s.slot n).position = some o → False) : s.endElsewhere n p = s := by
  unfold State.endElsewhere
  split
  · rename_i o hd ho; exact (h o hd ho).elim
  · rfl

/-- The record of a presented call returned to waiting, by its return kind (R88). -/
theorem Slot.returned_eq (sl : Slot) : sl.returned = { sl with
    disp := if sl.returnKind = some .recall then .recall else .queued
    position := if sl.returnKind = some .recall then sl.home else none
    returnKind := none, breakIn := false, deadline := none, savedClass := none } := by
  unfold Slot.returned
  split <;> rfl

/-- Settles O29: `endElsewhere` is what ends at another position, and a withdrawal what ends at the acting one. -/
theorem answerEndsPresentationsInItsWay : Obligations.AnswerEndsPresentationsInItsWay := by
  intro s n p v
  have hv : s.endElsewhere n p = v := by
    simp only [v]
    split
    · rename_i o hd ho
      rw [endElsewhere_presented hd ho]
      split
      · rfl
      · split
        · rename_i hst; exact releasePresenter_presenting hst
        · rename_i hst; exact releasePresenter_engaged hst
    · rename_i h; exact endElsewhere_not_presented h
  refine ⟨fun h => (clearForAnswer_own h).trans hv, fun m hst hm hmn => ?_⟩
  have hw : (s.endElsewhere n p).withdraw p = _ := State.withdraw_some (by rw [pos_endElsewhere]; exact hm)
  rw [clearForAnswer_other hst hm hmn, hw, State.returnSlot, slot_endElsewhere, pos_endElsewhere, Slot.returned_eq,
    State.setSlot, slots_endElsewhere, hv]
  rfl

/-! The push (R33, R35). -/

theorem counters_clearForAnswer (s : State) (n : SlotNo) (p : PosNo) :
    (s.clearForAnswer n p).counters = s.counters := by
  unfold State.clearForAnswer
  split
  · refine Eq.trans ?_ (counters_endElsewhere s n p)
    unfold State.withdraw
    split <;> rfl
  · exact counters_endElsewhere s n p

theorem counters_pushTalking (s : State) (p : PosNo) : (s.pushTalking p).counters = s.counters := by
  unfold State.pushTalking
  split <;> rfl

/-- ANSWER of an answerable call, told of the state it has cleared and pushed: a HELD call was not listed and counts
nothing (R35). -/
theorem answerTaken_seated (ha : (s.slot n).disp.isAnswerable = true) {w : State}
    (hw : (s.clearForAnswer n p).pushTalking p = w) :
    s.answerTaken n p = ((w.seated n p ((s.slot n).answeredAt p (s.classOf n)) (s.classOf n)
      (if (s.slot n).disp = .held then s.answerList else s.answerList.filter fun e => decide (e.slot ≠ n))
      (if (s.slot n).disp = .held then s.counters else s.counters.set (s.slot n).group
        { s.counts (s.slot n).group with answered := satInc (s.counts (s.slot n).group).answered })).retest
          p).arbitrate := by
  have hlist : w.answerList = s.answerList := by rw [← hw, answerList_pushTalking, answerList_clearForAnswer]
  have hcounters : w.counters = s.counters := by rw [← hw, counters_pushTalking, counters_clearForAnswer]
  have hlisted : (s.slot n).disp.isListed = true ↔ (s.slot n).disp ≠ .held := by
    rcases (isAnswerable_iff _).1 ha with h | h | h | h <;> simp [h, Disp.isListed]
  simp only [State.answerTaken, hw, hlisted, State.counts, ← hlist, ← hcounters]
  by_cases hheld : (s.slot n).disp = .held
  · rw [if_pos hheld, if_pos hheld, if_neg (not_not.2 hheld)]
    rfl
  · rw [if_neg hheld, if_neg hheld, if_pos hheld]
    rfl

/-- A position record with call `m` set aside on its stack at threshold `t` (R33). -/
def Position.pushed (q : Position) (m : SlotNo) (t : Class) : Position := { q with stack := ⟨m, t⟩ :: q.stack }

/-- The push of an ANSWER at an ENGAGED position acts on the records as they were before it (R33). -/
theorem pushTalking_clearForAnswer {t : Class} (n : SlotNo) (he : (s.pos p).state = .engaged)
    (ht : (s.pos p).talking = some m) (hold : (s.pos p).threshold = some t) :
    (s.clearForAnswer n p).pushTalking p =
      ((s.clearForAnswer n p).setSlot m (s.slot m).setAside).setPos p ((s.pos p).pushed m t) := by
  rw [clearForAnswer_own (.inl (by rw [he]; decide))]
  have hpos := pos_endElsewhere s n p
  rw [pushTalking_engaged (hpos ▸ he) (hpos ▸ ht) (hpos ▸ hold), slot_endElsewhere, hpos]
  rfl

/-- Seating a call after one slot and the position itself have been replaced, field by field. -/
theorem seated_replaced (u : State) (v w : Slot) (x : Position) (c : Class) (al : List Listed)
    (ct : Vector Counters 32) : ((u.setSlot m v).setPos p x).seated n p w c al ct = { u with
      slots := (u.slots.set m v).set n w
      positions := u.positions.set p (x.engagedWith n c)
      readyList := withoutPos u.readyList p, answerList := al, counters := ct } := by
  rw [State.seated, State.pos_setPos_same, State.setSlot_setPos, State.setPos_setPos]
  rfl

/-- An ENGAGED position that answers loses an offer of the call answered, and no other (R34, R35). -/
theorem engagedWith_engaged {x : Position} (he : x.state = .engaged) (n : SlotNo) (c : Class) :
    x.engagedWith n c = { x with
      talking := some n, misses := 0, wrapDeadline := none, threshold := some (if c = 7 then 7 else c + 1)
      presented := if x.presented = some n then none else x.presented } := by
  have hkeep : (if x.state = .engaged && decide (x.presented ≠ some n) then x.presented else none) =
      if x.presented = some n then none else x.presented := by
    by_cases h : x.presented = some n <;> simp [he, h]
  rw [Position.engagedWith, hkeep, thresholdFor, satInc_three, ← he]

/-- Settles O28: the push and the seating of `answerTaken_seated`, with the records they replace spelled. -/
theorem answerPushesTheTalkingCall : Obligations.AnswerPushesTheTalkingCall := by
  intro s r path upper lock n m p old hs hr hp hn hd he ht hmn hold hroom c g u q
  have ha : (s.slot n).disp.isAnswerable = true := (isAnswerable_iff _).2 hd
  have hq : s.answerTaken n p = (q.retest p).arbitrate := by
    rw [answerTaken_seated ha (pushTalking_clearForAnswer n he ht hold), seated_replaced,
      engagedWith_engaged (show ((s.pos p).pushed m old).state = .engaged from he)]
    rfl
  refine ⟨_, rfl, ?_⟩
  rw [← hq]
  refine (action_done hs hr hp (upper ++ 1#8) lock _ _ ?_).1
  rw [laneOf_zero]
  exact (actionEvent_named n .answer hn).trans (answerAction_room ha he hroom)

end
end Sys2Proof.Machine
end

section
/-! PROOFS. The answer queue: the urgency score, the best candidate. -/

namespace Sys2Proof.Machine

/-! The urgency score (R61, R62). -/

theorem urgency_final (g : GroupSettings) (waited recalls : Nat) : urgency g waited recalls true = 255 := rfl

theorem toNat_urgency_false (g : GroupSettings) (waited recalls : Nat) :
    (urgency g waited recalls false).toNat =
      min 255 (32 * g.cls.toNat + agingPart g.grain.toNat g.step.toNat waited + 24 * recalls) := by
  rw [urgency, if_neg Bool.false_ne_true, BitVec.toNat_ofNat]
  exact Nat.mod_eq_of_lt (by omega)

theorem agingPart_zero (step waited : Nat) : agingPart 0 step waited = 0 := rfl

theorem agingPart_of_ne {grain : Nat} (step waited : Nat) (h : grain ≠ 0) :
    agingPart grain step waited = step * (waited / grain) := if_neg h

/-! The candidates (R57) and the best of them (R64, R65). -/

theorem isWaiting_iff (d : Disp) : d.isWaiting = true ↔ d = .queued ∨ d = .recall := by
  cases d <;> simp [Disp.isWaiting]

theorem eligible_iff (s : State) (e : Listed) :
    s.eligible e = true ↔ (s.slot e.slot).disp = .queued ∨ (s.slot e.slot).disp = .recall := isWaiting_iff _

theorem presentsCalls_iff (s : State) :
    s.presentsCalls = true ↔ s.seq = .run ∧ s.actual = .day ∧ s.nightPending = false := by
  simp [State.presentsCalls, and_assoc]

theorem bestOf_eq_none_iff {l : List Listed} : bestOf l = none ↔ l = [] := by
  cases l with
  | nil => simp [bestOf]
  | cons e rest =>
    simp only [bestOf, reduceCtorEq, iff_false]
    split
    · simp
    · split <;> simp

/-- `b` at place `i` of `l` is the best of the entries that pass `p`: none of them outscores it, and none of equal score
stands ahead of it (R64). -/
def BestAtPlace (l : List Listed) (p : Listed → Bool) (b : Listed) (i : Nat) : Prop :=
  l[i]? = some b ∧ p b = true ∧
    ∀ j e, l[j]? = some e → p e = true → e.score ≤ b.score ∧ (e.score = b.score → i ≤ j)

section
variable {l : List Listed} {p : Listed → Bool} {b x : Listed} {i : Nat}

/-- The head does not displace the best of the tail when it does not pass, or has a lesser score. -/
theorem BestAtPlace.cons (h : BestAtPlace l p b i) (hx : p x = true → x.score < b.score) :
    BestAtPlace (x :: l) p b (i + 1) := by
  obtain ⟨hb, hpb, hbest⟩ := h
  refine ⟨hb, hpb, fun j e he hpe => ?_⟩
  cases j with
  | zero =>
    obtain rfl : x = e := by simpa using he
    have hlt := hx hpe
    exact ⟨BitVec.le_of_lt hlt, fun heq => absurd (heq ▸ hlt) (BitVec.lt_irrefl _)⟩
  | succ j =>
    obtain ⟨hle, hfirst⟩ := hbest j e he hpe
    exact ⟨hle, fun heq => Nat.succ_le_succ (hfirst heq)⟩

/-- The head is the best when it passes and no entry of the tail outscores it. -/
theorem bestAtPlace_head (hx : p x = true) (htail : ∀ e ∈ l, p e = true → e.score ≤ x.score) :
    BestAtPlace (x :: l) p x 0 := by
  refine ⟨rfl, hx, fun j e he hpe => ⟨?_, fun _ => Nat.zero_le j⟩⟩
  rcases List.mem_cons.1 (List.mem_of_getElem? he) with rfl | hmem
  · exact BitVec.le_refl _
  · exact htail e hmem hpe

/-- `bestOf` finds the entry of greatest score, the earliest among equals (R64). -/
theorem bestAtPlace_of_bestOf (h : bestOf (l.filter p) = some b) : ∃ i, BestAtPlace l p b i := by
  induction l generalizing b with
  | nil => simp [bestOf] at h
  | cons x rest ih =>
    by_cases hx : p x = true
    case neg =>
      rw [List.filter_cons_of_neg hx] at h
      obtain ⟨i, hi⟩ := ih h
      exact ⟨i + 1, hi.cons fun hpx => absurd hpx hx⟩
    case pos =>
      rw [List.filter_cons_of_pos hx, bestOf] at h
      split at h
      next hnone =>
        obtain rfl : x = b := Option.some.inj h
        have hempty := bestOf_eq_none_iff.1 hnone
        exact ⟨0, bestAtPlace_head hx fun e he hpe => absurd hpe (List.filter_eq_nil_iff.1 hempty e he)⟩
      next c hsome =>
        obtain ⟨i, hi⟩ := ih hsome
        split at h
        next hlt =>
          obtain rfl : c = b := Option.some.inj h
          exact ⟨i + 1, hi.cons fun _ => hlt⟩
        next hge =>
          obtain rfl : x = b := Option.some.inj h
          obtain ⟨-, -, hbest⟩ := hi
          refine ⟨0, bestAtPlace_head hx fun e he hpe => ?_⟩
          obtain ⟨j, hj⟩ := List.getElem?_of_mem he
          exact BitVec.le_trans (hbest j e hj hpe).1 (BitVec.not_lt.1 hge)

end

theorem bestOf_filter_eq_none_iff {l : List Listed} {p : Listed → Bool} :
    bestOf (l.filter p) = none ↔ ∀ (i : Nat) (e : Listed), l[i]? = some e → p e ≠ true := by
  rw [bestOf_eq_none_iff, List.filter_eq_nil_iff]
  refine ⟨fun h i e he => h e (List.mem_of_getElem? he), fun h e he => ?_⟩
  obtain ⟨i, hi⟩ := List.getElem?_of_mem he
  exact h i e hi

/-- An entry is a candidate at threshold `t`: eligible, and of a class that now reaches it (R65). -/
def State.reachesAt (s : State) (t : Class) (e : Listed) : Bool := decide (t ≤ s.classOf e.slot) && s.eligible e

theorem reachesAt_iff (s : State) (t : Class) (e : Listed) :
    s.reachesAt t e = true ↔ ((s.slot e.slot).disp = .queued ∨ (s.slot e.slot).disp = .recall) ∧
      t ≤ (s.group (s.slot e.slot).group).cls := by
  rw [State.reachesAt, Bool.and_eq_true, decide_eq_true_iff, eligible_iff, and_comm]; rfl

theorem bestCandidate_of_presents {s : State} (h : s.presentsCalls = true) :
    s.bestCandidate = bestOf (s.answerList.filter s.eligible) := if_pos h

theorem bestAt_of_presents {s : State} (h : s.presentsCalls = true) (t : Class) :
    s.bestAt t = bestOf (s.answerList.filter (s.reachesAt t)) := by
  rw [State.bestAt, if_pos h, State.eligibleList, List.filter_filter]; rfl

theorem bestCandidate_of_not_presents {s : State} (h : s.presentsCalls ≠ true) : s.bestCandidate = none := if_neg h

theorem bestAt_of_not_presents {s : State} (h : s.presentsCalls ≠ true) (t : Class) : s.bestAt t = none := if_neg h

/-- A best candidate is found only while calls may be presented, and it is the best of the eligible entries (R64). -/
theorem bestAtPlace_of_bestCandidate {s : State} {b : Listed} (h : s.bestCandidate = some b) :
    ∃ i, BestAtPlace s.answerList s.eligible b i := by
  by_cases hp : s.presentsCalls = true
  · exact bestAtPlace_of_bestOf (bestCandidate_of_presents hp ▸ h)
  · simp [bestCandidate_of_not_presents hp] at h

theorem bestAtPlace_of_bestAt {s : State} {t : Class} {b : Listed} (h : s.bestAt t = some b) :
    ∃ i, BestAtPlace s.answerList (s.reachesAt t) b i := by
  by_cases hp : s.presentsCalls = true
  · exact bestAtPlace_of_bestOf (bestAt_of_presents hp t ▸ h)
  · simp [bestAt_of_not_presents hp] at h

/-- Settles O39: the selection is `bestOf` on the entries that pass, and the score is a minimum that fits 8 bits. -/
theorem urgencyScoreAndBestCandidate : Obligations.UrgencyScoreAndBestCandidate := by
  refine ⟨fun s t => ⟨fun h => ?_, fun h => ?_, fun h => ?_, fun b h => ?_, fun b h => ?_⟩,
    fun g waited recalls => ⟨urgency_final g waited recalls, fun h => ?_, fun h => ?_⟩⟩
  · rw [← presentsCalls_iff] at h
    exact ⟨bestCandidate_of_not_presents h, bestAt_of_not_presents h t⟩
  · rw [bestCandidate_of_presents ((presentsCalls_iff s).2 h), bestOf_filter_eq_none_iff]
    simp only [ne_eq, eligible_iff, not_and]
  · rw [bestAt_of_presents ((presentsCalls_iff s).2 h), bestOf_filter_eq_none_iff]
    simp only [ne_eq, reachesAt_iff, not_and, and_imp]
  · obtain ⟨i, hb, hpb, hbest⟩ := bestAtPlace_of_bestCandidate h
    exact ⟨i, ⟨hb, (eligible_iff s b).1 hpb⟩, fun j e he => hbest j e he.1 ((eligible_iff s e).2 he.2)⟩
  · obtain ⟨i, hb, hpb, hbest⟩ := bestAtPlace_of_bestAt h
    obtain ⟨hwaits, hreach⟩ := (reachesAt_iff s t b).1 hpb
    exact ⟨i, ⟨hb, hwaits⟩, hreach, fun j e he hr => hbest j e he.1 ((reachesAt_iff s t e).2 ⟨he.2, hr⟩)⟩
  · have hgrain : g.grain.toNat = 0 := by rw [h]; rfl
    rw [toNat_urgency_false, hgrain, agingPart_zero, Nat.add_zero]
  · have hgrain : g.grain.toNat ≠ 0 := fun e => h (BitVec.eq_of_toNat_eq e)
    rw [toNat_urgency_false, agingPart_of_ne _ _ hgrain]

end Sys2Proof.Machine
end

section
/-! PROOFS. The rank order of the answer list (R68). -/

namespace Sys2Proof.Machine

theorem mem_rankInsert {a e : Listed} {l : List Listed} : a ∈ rankInsert e l ↔ a = e ∨ a ∈ l := by
  induction l with
  | nil => simp [rankInsert]
  | cons x rest ih =>
    unfold rankInsert
    split
    · exact List.mem_cons
    · rw [List.mem_cons, ih, List.mem_cons, or_left_comm]

theorem pairwise_rankInsert {e : Listed} {l : List Listed} (h : l.Pairwise fun a b => b.score ≤ a.score) :
    (rankInsert e l).Pairwise fun a b => b.score ≤ a.score := by
  induction l with
  | nil => exact List.pairwise_singleton ..
  | cons x rest ih =>
    obtain ⟨hx, hrest⟩ := List.pairwise_cons.1 h
    unfold rankInsert
    split
    next hle =>
      refine List.pairwise_cons.2 ⟨fun a ha => ?_, h⟩
      rcases List.mem_cons.1 ha with rfl | ha
      · exact hle
      · exact BitVec.le_trans (hx a ha) hle
    next hgt =>
      refine List.pairwise_cons.2 ⟨fun a ha => ?_, ih hrest⟩
      rcases mem_rankInsert.1 ha with rfl | ha
      · exact BitVec.le_of_lt (BitVec.not_le.1 hgt)
      · exact hx a ha

/-- An entry is placed ahead of those of equal score. -/
theorem filter_rankInsert (e : Listed) (l : List Listed) (u : Score) :
    ((rankInsert e l).filter fun x => decide (x.score = u)) = (e :: l).filter fun x => decide (x.score = u) := by
  induction l with
  | nil => rfl
  | cons x rest ih =>
    unfold rankInsert
    split
    next => rfl
    next hgt =>
      rw [List.filter_cons, ih]
      by_cases hx : x.score = u
      · have he : e.score ≠ u := fun he => hgt (hx.trans he.symm ▸ BitVec.le_refl _)
        simp [hx, he]
      · simp [List.filter_cons, hx]

theorem pairwise_rankOrder (l : List Listed) : (rankOrder l).Pairwise fun a b => b.score ≤ a.score := by
  induction l with
  | nil => exact List.Pairwise.nil
  | cons e rest ih => exact pairwise_rankInsert ih

/-- Entries of one score keep the order of the answer list. -/
theorem filter_rankOrder (l : List Listed) (u : Score) :
    ((rankOrder l).filter fun e => decide (e.score = u)) = l.filter fun e => decide (e.score = u) := by
  induction l with
  | nil => rfl
  | cons e rest ih =>
    rw [rankOrder, List.foldr_cons, filter_rankInsert, List.filter_cons, List.filter_cons]
    exact congrArg (fun t => if decide (e.score = u) then e :: t else t) ih

end Sys2Proof.Machine
end

section
/-! PROOFS. The overlaid words: their fields as numbers. -/

namespace Sys2Proof.Machine

open Sys2Proof.Safety

/-! Codes and fields as numbers (R197, R199). -/

theorem toNat_boolField (b : Bool) : b.toNat = if b then 1 else 0 := by cases b <;> rfl

theorem toNat_posField (o : Option PosNo) : (posField o).toNat = (o.map fun p => p.val).getD 15 := by
  cases o with
  | none => rfl
  | some p => exact Nat.mod_eq_of_lt (Nat.lt_trans p.isLt (by decide))

theorem toNat_slotField (o : Option SlotNo) : (slotField o).toNat = (o.map fun n => n.val).getD 255 := by
  cases o with
  | none => rfl
  | some n => exact Nat.mod_eq_of_lt (Nat.lt_trans n.isLt (by decide))

theorem toNat_classField (o : Option Class) : (classField o).toNat = (o.map BitVec.toNat).getD 15 := by
  cases o with
  | none => rfl
  | some c => exact BitVec.toNat_setWidth_of_le (by decide)

theorem toNat_thresholdField (o : Option Class) : (thresholdField o).toNat = (o.map BitVec.toNat).getD 0 := by
  cases o <;> rfl

theorem toNat_returnKindCode (k : Option ReturnKind) :
    (returnKindCode k).toNat = if k = none then 0 else if k = some .queued then 1 else 2 := by
  rcases k with _ | _ | _ <;> rfl

theorem toNat_modeCode (m : Mode) : (modeCode m).toNat = if m = .day then 1 else if m = .night then 2 else 3 := by
  cases m <;> rfl

theorem toNat_serviceCode (m : Service) : (serviceCode m).toNat = if m = .day then 1 else 2 := by cases m <;> rfl

theorem toNat_resetCauseCode (c : ResetCause) :
    (resetCauseCode c).toNat = if c = .power then 1 else if c = .pin then 2 else 3 := by cases c <;> rfl

theorem toNat_seqCode (q : Seq) : (seqCode q).toNat = if q = .fill then 1 else if q = .sweep then 2 else 3 := by
  cases q <;> rfl

/-- A requester has the same code in the fault record as on the bus (R199, R201). -/
theorem toNat_requesterCode (r : Option Requester) :
    (requesterCode r).toNat = (r.map fun x => (busCode x).toNat).getD 255 := by
  rcases r with _ | _ | _ | _ | _ <;> rfl

/-! Words as sums of their fields (R200). -/

theorem toNat_dispositionWord (sl : Slot) : (dispositionWord sl).toNat =
    (dispCode sl.disp).toNat + 2 ^ 4 * (posField sl.position).toNat + 2 ^ 8 * (posField sl.home).toNat +
      2 ^ 12 * (classField sl.savedClass).toNat + 2 ^ 16 * sl.group.val + 2 ^ 21 * sl.recalls.toNat +
      2 ^ 24 * sl.final.toNat + 2 ^ 25 * sl.breakIn.toNat + 2 ^ 26 * (returnKindCode sl.returnKind).toNat := by
  simp only [dispositionWord, toNat_append_add, BitVec.toNat_ofBool, BitVec.toNat_ofNat,
    Nat.mod_eq_of_lt sl.group.isLt]
  omega

theorem toNat_timingWord (elapsed : BitVec 12) {remaining : Nat} (h : remaining < 256) (u : Score) :
    (timingWord elapsed remaining u).toNat = elapsed.toNat + 2 ^ 16 * remaining + 2 ^ 24 * u.toNat := by
  simp only [timingWord, toNat_append_add, BitVec.toNat_ofNat]
  omega

theorem toNat_statusWord (q : Position) (current : Option SlotNo) {place : Nat} (hp : place < 8)
    (hs : q.stack.length < 8) : (statusWord q current place).toNat =
      (posStateCode q.state).toNat + 2 ^ 3 * q.closePending.toNat + 2 ^ 4 * q.misses.toNat +
        2 ^ 7 * q.stack.length + 2 ^ 10 * (thresholdField q.threshold).toNat + 2 ^ 13 * place +
        2 ^ 16 * (slotField current).toNat + 2 ^ 24 * (slotField q.presented).toNat := by
  simp only [statusWord, toNat_append_add, BitVec.toNat_ofBool, BitVec.toNat_ofNat]
  omega

theorem toNat_stackWord (o : Option StackEntry) :
    (stackWord o).toNat = (o.map fun e => e.slot.val + 2 ^ 8 * e.threshold.toNat).getD 255 := by
  cases o with
  | none => rfl
  | some e =>
    simp only [stackWord, toNat_append_add, toNat_slotField, BitVec.toNat_ofNat, Option.map_some, Option.getD_some]
    omega

theorem toNat_rankWord (o : Option (SlotNo × Score × Disp)) : (rankWord o).toNat =
    (o.map fun x => x.1.val + 2 ^ 8 * x.2.1.toNat + 2 ^ 16 * (dispCode x.2.2).toNat).getD 255 := by
  cases o with
  | none => rfl
  | some x =>
    obtain ⟨n, u, d⟩ := x
    simp only [rankWord, toNat_append_add, toNat_slotField, BitVec.toNat_ofNat, Option.map_some, Option.getD_some]
    omega

theorem toNat_modeStatusWord (actual : Mode) (requested : Service) (pending : Bool) (cause : ResetCause) (seq : Seq) :
    (modeStatusWord actual requested pending cause seq).toNat =
      (modeCode actual).toNat + 2 ^ 2 * (serviceCode requested).toNat + 2 ^ 4 * pending.toNat +
        2 ^ 8 * (resetCauseCode cause).toNat + 2 ^ 12 * (seqCode seq).toNat := by
  simp only [modeStatusWord, toNat_append_add, BitVec.toNat_ofBool, BitVec.toNat_ofNat]
  omega

theorem toNat_causesWord (set : BitVec 8) : (causesWord set).toNat = set.toNat := by
  simp only [causesWord, toNat_append_add, BitVec.toNat_ofNat]
  omega

theorem toNat_summaryWord {listed eligible : Nat} (hl : listed < 256) (he : eligible < 256) (best : Option SlotNo)
    (u : Score) : (summaryWord listed eligible best u).toNat =
      listed + 2 ^ 8 * eligible + 2 ^ 16 * (slotField best).toNat + 2 ^ 24 * u.toNat := by
  simp only [summaryWord, toNat_append_add, BitVec.toNat_ofNat]
  omega

theorem toNat_callClockWord (ticks : Tick) (cadence : Fin 40) :
    (callClockWord ticks cadence.val).toNat = ticks.toNat + 2 ^ 16 * cadence.val := by
  have := cadence.isLt
  simp only [callClockWord, toNat_append_add, BitVec.toNat_ofNat]
  omega

theorem toNat_faultHeadWord (f : FaultEntry) (overflow : BitVec 4) : (faultHeadWord (some f) overflow).toNat =
    1 + 2 ^ 8 * (faultCauseCode f.cause).toNat + 2 ^ 16 * (requesterCode f.requester).toNat +
      2 ^ 24 * overflow.toNat := by
  simp only [faultHeadWord, toNat_append_add, BitVec.toNat_ofNat]
  omega

theorem toNat_faultOffsetWord (f : FaultEntry) : (faultOffsetWord (some f)).toNat = f.offset.toNat := by
  simp only [faultOffsetWord, toNat_append_add, BitVec.toNat_ofNat]
  omega

theorem toNat_countsWord (low high : BitVec 16) : (countsWord low high).toNat = low.toNat + 2 ^ 16 * high.toNat := by
  simp only [countsWord, toNat_append_add]
  omega

/-! What the owners put into these fields. -/

theorem remainingAt_eq (now : Tick) (deadline : Option Tick) : remainingAt now deadline =
    (deadline.map fun d => ((d.toNat + 65536 - now.toNat) % 65536 + 9) / 10).getD 0 := by
  cases deadline with
  | none => rfl
  | some d =>
    have hnow := now.isLt
    have hsub : (d - now).toNat = (d.toNat + 65536 - now.toNat) % 65536 := by rw [BitVec.toNat_sub]; omega
    simp only [remainingAt, hsub, Option.map_some, Option.getD_some]

/-- The remaining seconds of a deadline not behind the count fit the TIMING word's field (R109, R110). -/
theorem remainingAt_lt {now : Tick} {deadline : Option Tick} (h : NotBehind now deadline) :
    remainingAt now deadline < 256 := by
  cases deadline with
  | none => exact Nat.zero_lt_succ _
  | some d =>
    have := h d rfl
    simp only [remainingAt]; omega

theorem toNat_keptScore (s : State) (n : SlotNo) : (s.keptScore n).toNat =
    ((s.answerList.find? fun e => decide (e.slot = n)).map fun e => e.score.toNat).getD 0 := by
  unfold State.keptScore
  cases s.answerList.find? fun e => decide (e.slot = n) <;> rfl

theorem currentSlot_eq (s : State) (p : PosNo) : s.currentSlot p =
    if (s.pos p).state = .engaged then (s.pos p).talking
    else if (s.pos p).state = .presenting then (s.pos p).presented else none := by
  unfold State.currentSlot
  cases (s.pos p).state <;> rfl

theorem readyPlace_eq (s : State) (p : PosNo) :
    s.readyPlace p = if p ∈ s.readyList then s.readyList.idxOf p + 1 else 0 := by
  by_cases h : p ∈ s.readyList
  · have hfind : (s.readyList.findIdx? fun x => decide (x = p)) = some (s.readyList.idxOf p) :=
      List.findIdx?_eq_some_iff_findIdx_eq.2 ⟨List.idxOf_lt_length_iff.2 h, rfl⟩
    rw [State.readyPlace, hfind, if_pos h]
  · have hfind : (s.readyList.findIdx? fun x => decide (x = p)) = none :=
      List.findIdx?_eq_none_iff.2 fun x hx => decide_eq_false fun e => h (e ▸ hx)
    rw [State.readyPlace, hfind, if_neg h]

/-- A place in a ready list that names each position once is at most 4. -/
theorem readyPlace_le {s : State} (h : s.readyList.Nodup) (p : PosNo) : s.readyPlace p ≤ 4 := by
  have hlen : s.readyList.length ≤ 4 := by simpa using h.length_le_card
  rw [readyPlace_eq]
  split
  next hmem => exact Nat.le_trans (List.idxOf_lt_length_iff.2 hmem) hlen
  next => exact Nat.zero_le 4

theorem length_eligibleList (s : State) : s.eligibleList.length =
    s.answerList.countP fun e => decide ((s.slot e.slot).disp = .queued ∨ (s.slot e.slot).disp = .recall) := by
  rw [State.eligibleList, ← List.countP_eq_length_filter]
  exact List.countP_congr fun e _ => by rw [eligible_iff, decide_eq_true_iff]

theorem toNat_queueSummary {s : State} (h : s.answerList.length ≤ 128) : s.queueSummary.toNat =
    s.answerList.length + 2 ^ 8 * s.eligibleList.length +
      2 ^ 16 * (slotField (s.bestCandidate.map Listed.slot)).toNat +
      2 ^ 24 * (s.bestCandidate.map fun e => e.score.toNat).getD 0 := by
  have heligible : s.eligibleList.length ≤ s.answerList.length := List.length_filter_le ..
  unfold State.queueSummary
  cases s.bestCandidate with
  | none => exact toNat_summaryWord (by omega) (by omega) none 0
  | some e => exact toNat_summaryWord (by omega) (by omega) (some e.slot) e.score

theorem toNat_rankViewWord (s : State) (k : Nat) : (s.rankViewWord k).toNat =
    ((rankOrder s.answerList)[k]?.map fun e =>
      e.slot.val + 2 ^ 8 * e.score.toNat + 2 ^ 16 * (dispCode (s.slot e.slot).disp).toNat).getD 255 := by
  rw [State.rankViewWord, toNat_rankWord, Option.map_map]; rfl

/-! The offsets of these words (R130). -/

theorem placeOf_timing (n : SlotNo) : placeOf (slotOffset n 3) = .timing n := placeOf_slotOffset n (by omega)

theorem placeOf_stackView (p : PosNo) (k : Fin 4) : placeOf (blockOffset p (2 + k.val)) = .stackView p k := by
  have hk := k.isLt
  rw [placeOf_blockOffset p (by omega), blockPlace, if_neg (by omega), if_neg (by omega), if_pos (by omega)]
  congr 1; ext; simp

theorem placeOf_rank : ∀ k : Fin 32, placeOf (BitVec.ofNat 11 (0x020 + k.val)) = .rank k := by decide

/-- A word that is overlaid reads as its owner's value. -/
theorem overlay_reads {s : State} {off : Offset} {pl : Place} {w : Word32} {v : Nat} (hp : placeOf off = pl)
    (ho : s.overlay pl = some w) (hv : w.toNat = v) : (s.overlay (placeOf off)).map BitVec.toNat = some v := by
  rw [hp, ho, Option.map_some, hv]

/-- Settles O56: each offset names its word, and each word is the sum of its fields; the rank view shows `rankOrder`. -/
theorem overlaidWordsReadTheOwnersState : Obligations.OverlaidWordsReadTheOwnersState := by
  intro s reads bit code place slotNo
  have hcode : ∀ d, (dispCode d).toNat = code d := fun d => by cases d <;> rfl
  refine ⟨fun n => ⟨?_, fun hahead => ?_⟩, fun p hstack hready => ?_, fun p k => ?_, ?_, ?_, fun hlist => ?_, ?_,
    fun hnone => ⟨?_, ?_, ?_⟩, fun f hf => ⟨?_, ?_, ?_⟩, fun g => ⟨?_, ?_⟩,
    rankOrder s.answerList, pairwise_rankOrder _, filter_rankOrder _, fun k => ?_⟩
  · refine overlay_reads (placeOf_disposition n) rfl ?_
    rw [toNat_dispositionWord, hcode, toNat_posField, toNat_posField, toNat_classField, toNat_returnKindCode,
      toNat_boolField, toNat_boolField]
  · refine overlay_reads (placeOf_timing n) rfl ?_
    rw [toNat_timingWord _ (remainingAt_lt hahead), remainingAt_eq, toNat_keptScore]
  · refine overlay_reads (placeOf_status p) rfl ?_
    have hplace := readyPlace_le hready p
    rw [toNat_statusWord _ _ (by omega) (by omega), toNat_boolField, toNat_thresholdField, toNat_slotField,
      toNat_slotField, currentSlot_eq, readyPlace_eq]
    cases (s.pos p).state <;> rfl
  · exact overlay_reads (placeOf_stackView p k) rfl (toNat_stackWord _)
  · refine overlay_reads (pl := .modeStatus) rfl rfl ?_
    rw [toNat_modeStatusWord, toNat_modeCode, toNat_serviceCode, toNat_boolField, toNat_resetCauseCode, toNat_seqCode]
  · exact overlay_reads (pl := .attention) rfl rfl (toNat_causesWord _)
  · refine overlay_reads (pl := .queueSummary) rfl rfl ?_
    rw [toNat_queueSummary hlist, length_eligibleList, toNat_slotField]
  · exact overlay_reads (pl := .callClock) rfl rfl (toNat_callClockWord _ _)
  · exact overlay_reads (pl := .faultHead) rfl rfl (by rw [hnone]; rfl)
  · exact overlay_reads (pl := .faultOffset) rfl rfl (by rw [hnone]; rfl)
  · exact overlay_reads (pl := .faultValue) rfl rfl (by rw [hnone]; rfl)
  · refine overlay_reads (pl := .faultHead) rfl rfl ?_
    rw [hf, toNat_faultHeadWord, toNat_requesterCode]
    cases f.cause <;> rfl
  · exact overlay_reads (pl := .faultOffset) rfl rfl (by rw [hf, toNat_faultOffsetWord])
  · exact overlay_reads (pl := .faultValue) rfl rfl (by rw [hf]; rfl)
  · exact overlay_reads (placeOf_counter g).1 rfl (toNat_countsWord _ _)
  · exact overlay_reads (placeOf_counter g).2 rfl (toNat_countsWord _ _)
  · refine overlay_reads (placeOf_rank k) rfl ?_
    rw [toNat_rankViewWord]
    simp only [hcode]

end Sys2Proof.Machine
end

section
/-! PROOFS. The Presentation Arbiter: ordinary presentations and what ends them. -/

namespace Sys2Proof.Machine

open Sys2Proof.Safety

section
variable {s : State} {n : SlotNo} {p first : PosNo} {e : Listed} {rest : List PosNo}

/-! One presentation, and the presentations of one event (R84, R86). -/

/-- With no candidate or no READY position there is no presentation (R86). -/
theorem presentAll_stops (k : Nat) (h : s.bestCandidate = none ∨ s.readyList = []) : State.presentAll k s = s := by
  cases k with
  | zero => rfl
  | succ k =>
    unfold State.presentAll
    split
    next he hl => rcases h with h | h <;> simp_all
    next => rfl

/-- The best candidate is presented, and the repetition goes on (R84, R86). -/
theorem presentAll_succ (he : s.bestCandidate = some e) (hl : s.readyList = first :: rest) (k : Nat) :
    State.presentAll (k + 1) s = State.presentAll k (s.presentTo e.slot (s.receiver e.slot first)) := by
  simp only [State.presentAll, he, hl]

/-- A RECALL call goes to its home where that is READY, and every other call to the first READY position (R84). -/
theorem receiver_eq (s : State) (n : SlotNo) (first : PosNo) : s.receiver n first =
    match (s.slot n).home with
    | some h => if (s.slot n).disp = .recall ∧ (s.pos h).state = .ready then h else first
    | none => first := by
  unfold State.receiver
  cases hh : (s.slot n).home with
  | none => cases (s.slot n).disp <;> rfl
  | some h =>
    by_cases hd : (s.slot n).disp = .recall
    · simp [hd, State.isReady]
    · simp [hd]

/-- Settles O37: `presentAll_stops` ends the repetition, and `presentAll_succ` is one presentation, to the receiver. -/
theorem arbiterPresentsTheBestCandidate : Obligations.ArbiterPresentsTheBestCandidate := by
  refine ⟨fun s k h => presentAll_stops k h, ?_⟩
  intro s e first rest k he hl p
  have hp : s.receiver e.slot first = p := receiver_eq s e.slot first
  rw [presentAll_succ he hl, hp]
  rfl

theorem readyListExact_presentTo (h : ReadyListExact s) (n : SlotNo) (p : PosNo) :
    ReadyListExact (s.presentTo n p) :=
  readyListExact_removed h (s.pos_presentTo n p) rfl (by simp [Position.bare])

theorem readyListExact_presentAll (h : ReadyListExact s) (k : Nat) : ReadyListExact (State.presentAll k s) := by
  induction k generalizing s with
  | zero => exact h
  | succ k ih =>
    unfold State.presentAll
    split
    · exact ih (readyListExact_presentTo h _ _)
    · exact h

/-- A presentation takes one position out of the ready list (R84). -/
theorem length_readyList_presentTo (n : SlotNo) (hp : p ∈ s.readyList) :
    (s.presentTo n p).readyList.length < s.readyList.length :=
  List.length_filter_lt_length_iff_exists.2 ⟨p, hp, by simp⟩

/-- As many presentations as there are READY positions use up the candidates or the READY positions (R86). -/
theorem presentAll_ends (h : ReadyListExact s) {k : Nat} (hk : s.readyList.length ≤ k) :
    (State.presentAll k s).bestCandidate = none ∨ (State.presentAll k s).readyList = [] := by
  induction k generalizing s with
  | zero => exact .inr (List.eq_nil_of_length_eq_zero (Nat.le_zero.1 hk))
  | succ k ih =>
    cases he : s.bestCandidate with
    | none => rw [presentAll_stops _ (.inl he)]; exact .inl he
    | some e =>
      cases hl : s.readyList with
      | nil => rw [presentAll_stops _ (.inr hl)]; exact .inr hl
      | cons first rest =>
        have hfirst : (s.pos first).state = .ready := (h.2 first).1 (by simp [hl])
        have hmem := (h.2 (s.receiver e.slot first)).2 (receiver_ready hfirst)
        rw [presentAll_succ he hl]
        exact ih (readyListExact_presentTo h _ _)
          (Nat.le_of_lt_succ ((length_readyList_presentTo e.slot hmem).trans_le hk))

end

end Sys2Proof.Machine
end

section
/-! PROOFS. The Presentation Arbiter: break-in offers and what ends them. -/

namespace Sys2Proof.Machine

open Sys2Proof.Safety

section
variable {s : State} {n : SlotNo} {p x : PosNo} {t u : Sys2Proof.Class} {e : Listed} {l : List PosNo}

/-! The qualifying positions (R85). -/

/-- Position `p` qualifies for a break-in offer at threshold `u` (R85). -/
theorem qualifying_eq_some_iff : s.qualifying p = some u ↔
    p.val < s.fitted ∧ (s.pos p).state = .engaged ∧ (s.pos p).presented = none ∧ (s.pos p).closePending = false ∧
      (s.pos p).stack.length < 4 ∧ (s.pos p).threshold = some u := by
  have hguard : (s.isFitted p && s.isEngaged p && (s.pos p).presented.isNone && !(s.pos p).closePending
      && decide ((s.pos p).stack.length < Config.stackDepth)) = true ↔
      p.val < s.fitted ∧ (s.pos p).state = .engaged ∧ (s.pos p).presented = none ∧ (s.pos p).closePending = false ∧
        (s.pos p).stack.length < 4 := by
    simp [State.isFitted, State.isEngaged, Config.stackDepth, and_assoc]
  unfold State.qualifying
  dsimp only
  split
  next h =>
    obtain ⟨h1, h2, h3, h4, h5⟩ := hguard.1 h
    simp [h1, h2, h3, h4, h5]
  next h =>
    refine iff_of_false (by simp) fun ⟨h1, h2, h3, h4, h5, _⟩ => h (hguard.2 ⟨h1, h2, h3, h4, h5⟩)

theorem mem_allPositions (p : PosNo) : p ∈ allPositions := by fin_cases p <;> decide

/-- `p` qualifies at `t`, no position of `l` qualifies at a lower threshold, and none of a lower number at `t` (R85,
steps 1 and 3). -/
structure State.Lowest (s : State) (l : List PosNo) (p : PosNo) (t : Sys2Proof.Class) : Prop where
  mem : p ∈ l
  qualifies : s.qualifying p = some t
  least : ∀ x ∈ l, ∀ u, s.qualifying x = some u → t ≤ u ∧ (u = t → p ≤ x)

theorem State.Lowest.unique {q : PosNo} (h : s.Lowest l p t) (k : s.Lowest l q u) : p = q ∧ t = u := by
  obtain ⟨htu, hpq⟩ := h.least q k.mem u k.qualifies
  obtain ⟨hut, hqp⟩ := k.least p h.mem t h.qualifies
  have heq : t = u := BitVec.le_antisymm htu hut
  exact ⟨Fin.le_antisymm (hpq heq.symm) (hqp heq), heq⟩

theorem lowestQualifying_eq_none_iff : s.lowestQualifying l = none ↔ ∀ x ∈ l, s.qualifying x = none := by
  induction l with
  | nil => simp [State.lowestQualifying]
  | cons a l ih =>
    unfold State.lowestQualifying
    split
    next ha => rw [ih]; simp [ha]
    next ha _ => simp [ha]
    next ha _ => split <;> simp [ha]

/-- `lowestQualifying` finds the lowest threshold and, of the positions that share it, the lowest number (R85). -/
theorem lowest_of_lowestQualifying (hl : l.Pairwise (· < ·)) (h : s.lowestQualifying l = some (p, t)) :
    s.Lowest l p t := by
  induction l generalizing p t with
  | nil => simp [State.lowestQualifying] at h
  | cons a l ih =>
    obtain ⟨hfirst, hl⟩ := List.pairwise_cons.1 hl
    unfold State.lowestQualifying at h
    split at h
    next ha =>
      obtain ⟨hmem, hq, hleast⟩ := ih hl h
      refine ⟨List.mem_cons_of_mem a hmem, hq, List.forall_mem_cons.2 ⟨fun u hu => ?_, hleast⟩⟩
      simp [ha] at hu
    next v ha hrest =>
      obtain ⟨rfl, rfl⟩ : a = p ∧ v = t := by simpa using h
      refine ⟨List.mem_cons_self, ha, List.forall_mem_cons.2 ⟨fun u hu => ?_, fun x hx u hu => ?_⟩⟩
      · exact ⟨BitVec.le_of_eq (Option.some.inj (ha.symm.trans hu)), fun _ => le_rfl⟩
      · simp [lowestQualifying_eq_none_iff.1 hrest x hx] at hu
    next v q w ha hrest =>
      obtain ⟨hmem, hq, hleast⟩ := ih hl hrest
      split at h
      next hlt =>
        obtain ⟨rfl, rfl⟩ : q = p ∧ w = t := by simpa using h
        refine ⟨List.mem_cons_of_mem a hmem, hq, List.forall_mem_cons.2 ⟨fun u hu => ?_, hleast⟩⟩
        obtain rfl : v = u := Option.some.inj (ha.symm.trans hu)
        exact ⟨BitVec.le_of_lt hlt, fun heq => absurd (heq ▸ hlt) (BitVec.lt_irrefl _)⟩
      next hge =>
        obtain ⟨rfl, rfl⟩ : a = p ∧ v = t := by simpa using h
        refine ⟨List.mem_cons_self, ha, List.forall_mem_cons.2 ⟨fun u hu => ?_, fun x hx u hu => ?_⟩⟩
        · exact ⟨BitVec.le_of_eq (Option.some.inj (ha.symm.trans hu)), fun _ => le_rfl⟩
        · exact ⟨BitVec.le_trans (BitVec.not_lt.1 hge) (hleast x hx u hu).1, fun _ => (hfirst x hx).le⟩

theorem lowestQualifying_eq_some_iff :
    s.lowestQualifying allPositions = some (p, t) ↔ s.Lowest allPositions p t := by
  refine ⟨lowest_of_lowestQualifying (by decide), fun h => ?_⟩
  cases hq : s.lowestQualifying allPositions with
  | none => exact absurd h.qualifies (by simp [lowestQualifying_eq_none_iff.1 hq p h.mem])
  | some r =>
    obtain ⟨hp, ht⟩ := (lowest_of_lowestQualifying (by decide) hq).unique h
    rw [← hp, ← ht]

/-! One offer, and the offers of one event (R85, R86). -/

theorem offerAll_of_ready (k : Nat) (h : s.readyList ≠ []) : State.offerAll k s = s := by
  cases k with
  | zero => rfl
  | succ k => exact if_neg h

theorem offerAll_of_none_qualifies (k : Nat) (h : ∀ x, s.qualifying x = none) : State.offerAll k s = s := by
  cases k with
  | zero => rfl
  | succ k => simp [State.offerAll, lowestQualifying_eq_none_iff.2 fun x (_ : x ∈ allPositions) => h x]

theorem offerAll_of_none_reaches (k : Nat) (h : s.Lowest allPositions p t) (he : s.bestAt t = none) :
    State.offerAll k s = s := by
  cases k with
  | zero => rfl
  | succ k => simp [State.offerAll, lowestQualifying_eq_some_iff.2 h, he]

theorem offerAll_succ (hl : s.readyList = []) (h : s.Lowest allPositions p t) (he : s.bestAt t = some e) (k : Nat) :
    State.offerAll (k + 1) s = State.offerAll k (s.offerTo e.slot p) := by
  simp [State.offerAll, hl, lowestQualifying_eq_some_iff.2 h, he]

theorem readyListExact_offerAll (h : ReadyListExact s) (k : Nat) : ReadyListExact (State.offerAll k s) := by
  induction k generalizing s with
  | zero => exact h
  | succ k ih =>
    unfold State.offerAll
    split
    · split
      · split
        · exact ih (readyListExact_kept h (s.pos_offerTo _ _) rfl Iff.rfl)
        · exact h
      · exact h
    · exact h

theorem readyList_offerAll (k : Nat) (s : State) : (State.offerAll k s).readyList = s.readyList := by
  induction k generalizing s with
  | zero => rfl
  | succ k ih =>
    unfold State.offerAll
    split
    · split
      · split
        · exact ih _
        · rfl
      · rfl
    · rfl

/-- The positions that qualify for an offer now. -/
def State.qualifyingList (s : State) : List PosNo := allPositions.filter fun x => (s.qualifying x).isSome

theorem qualifying_offerTo (s : State) (n : SlotNo) (p x : PosNo) :
    (s.offerTo n p).qualifying x = if x = p then none else s.qualifying x := by
  unfold State.qualifying
  rw [State.pos_offerTo]
  by_cases hx : x = p
  · simp [hx]
  · simp only [if_neg hx, State.isEngaged, State.pos_offerTo]
    rfl

/-- An offer takes its position out of those that qualify (R86). -/
theorem length_qualifyingList_offerTo (n : SlotNo) (h : s.qualifying p = some t) :
    (s.offerTo n p).qualifyingList.length < s.qualifyingList.length := by
  have hsub : (s.offerTo n p).qualifyingList = s.qualifyingList.filter fun x => decide (x ≠ p) := by
    rw [State.qualifyingList, State.qualifyingList, List.filter_filter]
    refine List.filter_congr fun x _ => ?_
    rw [qualifying_offerTo]
    by_cases hx : x = p <;> simp [hx]
  rw [hsub]
  refine List.length_filter_lt_length_iff_exists.2 ⟨p, List.mem_filter.2 ⟨mem_allPositions p, ?_⟩, by simp⟩
  rw [h]; rfl

/-- As many offers as there are positions that qualify leave no candidate at the lowest threshold (R86). -/
theorem offerAll_ends {k : Nat} (hk : s.qualifyingList.length ≤ k) (hl : s.readyList = [])
    (h : (State.offerAll k s).Lowest allPositions p t) : (State.offerAll k s).bestAt t = none := by
  induction k generalizing s with
  | zero =>
    have hempty : s.qualifyingList = [] := List.eq_nil_of_length_eq_zero (Nat.le_zero.1 hk)
    have hsome : s.qualifying p = some t := h.qualifies
    exact absurd (List.filter_eq_nil_iff.1 hempty p h.mem) (by simp [hsome])
  | succ k ih =>
    cases hq : s.lowestQualifying allPositions with
    | none =>
      have hnone := fun x => lowestQualifying_eq_none_iff.1 hq x (mem_allPositions x)
      rw [offerAll_of_none_qualifies _ hnone] at h
      exact absurd h.qualifies (by simp [hnone])
    | some r =>
      have hr : s.Lowest allPositions r.1 r.2 := lowestQualifying_eq_some_iff.1 hq
      cases he : s.bestAt r.2 with
      | none =>
        rw [offerAll_of_none_reaches _ hr he] at h ⊢
        rw [(h.unique hr).2, he]
      | some e =>
        rw [offerAll_succ hl hr he] at h ⊢
        exact ih (Nat.le_of_lt_succ ((length_qualifyingList_offerTo e.slot hr.qualifies).trans_le hk)) hl h

/-! What the arbiter leaves (R86). -/

theorem readyListExact_arbitrate (h : ReadyListExact s) : ReadyListExact s.arbitrate :=
  readyListExact_offerAll (readyListExact_presentAll h _) _

/-- Once the arbiter has acted there is no candidate or no READY position left. -/
theorem arbitrate_ends (h : ReadyListExact s) : s.arbitrate.bestCandidate = none ∨ s.arbitrate.readyList = [] := by
  rcases presentAll_ends h le_rfl with hb | hl
  · by_cases hl : (State.presentAll s.readyList.length s).readyList = []
    · exact .inr ((readyList_offerAll _ _).trans hl)
    · rw [State.arbitrate, offerAll_of_ready 4 hl]
      exact .inl hb
  · exact .inr ((readyList_offerAll _ _).trans hl)

/-- Where the arbiter leaves no position READY, no candidate reaches the lowest threshold that qualifies. -/
theorem bestAt_arbitrate (hl : s.arbitrate.readyList = []) (h : s.arbitrate.Lowest allPositions p t) :
    s.arbitrate.bestAt t = none :=
  offerAll_ends (List.length_filter_le ..) ((readyList_offerAll 4 _).symm.trans hl) h

/-- Some position qualifies at the lowest threshold, and it is found. -/
theorem exists_lowest (hq : s.qualifying p = some u) (hleast : ∀ x v, s.qualifying x = some v → u ≤ v) :
    ∃ q, s.Lowest allPositions q u := by
  cases h : s.lowestQualifying allPositions with
  | none => simp [lowestQualifying_eq_none_iff.1 h p (mem_allPositions p)] at hq
  | some r =>
    have hr : s.Lowest allPositions r.1 r.2 := lowestQualifying_eq_some_iff.1 h
    have heq : r.2 = u := BitVec.le_antisymm (hr.least p (mem_allPositions p) u hq).1 (hleast r.1 r.2 hr.qualifies)
    exact ⟨r.1, heq ▸ hr⟩

/-- Settles O38: `offerAll_succ` is one offer, at the position `Lowest` names, and the counts of READY and of qualifying
positions bound the repetition. -/
theorem arbiterOffersABreakInAtTheLowestThreshold : Obligations.ArbiterOffersABreakInAtTheLowestThreshold := by
  unfold Obligations.ArbiterOffersABreakInAtTheLowestThreshold
  intro qualifies
  have hqual : ∀ s x u, qualifies s x u ↔ s.qualifying x = some u := fun s x u => qualifying_eq_some_iff.symm
  simp only [hqual]
  refine ⟨fun s => rfl, fun s h => ⟨arbitrate_ends h, fun p u hl hq hleast => ?_⟩, fun s k => ⟨?_, ?_⟩⟩
  · obtain ⟨q, hlow⟩ := exists_lowest hq hleast
    exact bestAt_arbitrate hl hlow
  · rintro (h | h)
    · exact offerAll_of_ready _ h
    · exact offerAll_of_none_qualifies _ fun x => Option.eq_none_iff_forall_ne_some.2 (h x)
  · intro p t hl hq hleast
    have hlow : s.Lowest allPositions p t := ⟨mem_allPositions p, hq, fun x _ u hu => hleast x u hu⟩
    refine ⟨offerAll_of_none_reaches _ hlow, fun e he => ?_⟩
    rw [offerAll_succ hl hlow he]
    rfl

end

end Sys2Proof.Machine
end

section
/-! PROOFS. CONTROL commands: OPEN and CLOSE. -/

namespace Sys2Proof.Machine

open Sys2Proof.Safety

section
variable {s : State} {p : PosNo}

/-! What each command is judged as, and the records it leaves (R77 to R81). -/

theorem controlEvent_open (hf : s.isFitted p = true) (hn : s.actual ≠ .night) (hp : s.nightPending = false) :
    s.controlEvent p 1 = ⟨s.openTaken p, .taken⟩ := by
  simp [State.controlEvent, hf, hn, hp]

theorem controlEvent_close (hf : s.isFitted p = true) : s.controlEvent p 2 = ⟨s.closeTaken p, .taken⟩ := by
  simp [State.controlEvent, hf]

/-- A position opened has no misses (R78). -/
theorem becomeReady_setMisses (s : State) (p : PosNo) : (s.setPos p { s.pos p with misses := 0 }).becomeReady p =
    { s with
      positions := s.positions.set p { Position.empty with state := .ready }
      readyList := withoutPos s.readyList p ++ [p] } := by
  rw [State.becomeReady, State.pos_setPos_same, State.setPos_setPos]
  rfl

theorem openTaken_eq (s : State) (p : PosNo) : s.openTaken p =
    if (s.pos p).state = .closed then
      State.arbitrate { s with
        positions := s.positions.set p { Position.empty with state := .ready }
        readyList := withoutPos s.readyList p ++ [p] }
    else s := by
  rw [State.openTaken, becomeReady_setMisses]

/-- `u` with position `p` closed, the miss count and the ready list as `s` has them but for `p` (R79). -/
def State.closedAt (u s : State) (p : PosNo) : State := { u with
  positions := u.positions.set p { Position.empty with misses := (s.pos p).misses }
  readyList := withoutPos s.readyList p }

theorem becomeClosed_eq (s : State) (p : PosNo) : s.becomeClosed p = s.closedAt s p := rfl

theorem becomeClosed_withdraw (s : State) (p : PosNo) :
    (s.withdraw p).becomeClosed p = (s.withdraw p).closedAt s p := by
  rw [becomeClosed_eq, State.closedAt, State.closedAt, State.readyList_withdraw, State.pos_withdraw, if_pos rfl]

/-- Position `p` marked close-pending, its offer withdrawn (R81). -/
def State.markedClosing (s : State) (p : PosNo) : State := { s.withdraw p with
  positions := s.positions.set p { s.pos p with presented := none, closePending := true } }

theorem setPos_withdraw (s : State) (p : PosNo) (x : Position) :
    (s.withdraw p).setPos p x = { s.withdraw p with positions := s.positions.set p x } := by
  cases h : (s.pos p).presented with
  | none => rw [State.withdraw_none h]; rfl
  | some n => rw [State.withdraw_some h, State.setPos_setPos]; rfl

theorem markClosing_eq (s : State) (p : PosNo) :
    (s.withdraw p).setPos p { (s.withdraw p).pos p with closePending := true } = s.markedClosing p := by
  rw [setPos_withdraw, State.pos_withdraw, if_pos rfl]
  rfl

theorem pos_markedClosing (s : State) (p : PosNo) :
    (s.markedClosing p).pos p = { s.pos p with presented := none, closePending := true } := by
  rw [← markClosing_eq, State.pos_setPos_same, State.pos_withdraw, if_pos rfl]

/-- Marking a position calls the arbiter where it has taken an offer away, and not else (R81, R83). -/
theorem positionCalls_markedClosing (s : State) (p : PosNo) :
    positionCalls (s.pos p) ((s.markedClosing p).pos p) = (s.pos p).presented.isSome := by
  rw [pos_markedClosing]
  cases hst : (s.pos p).state <;> simp [positionCalls, hst]

theorem closeTaken_eq (s : State) (p : PosNo) : s.closeTaken p =
    match (s.pos p).state with
    | .closed => s
    | .ready => s.closedAt s p
    | .wrapup => s.closedAt s p
    | .presenting => ((s.withdraw p).closedAt s p).arbitrate
    | .engaged => if (s.pos p).presented.isSome then (s.markedClosing p).arbitrate else s.markedClosing p := by
  unfold State.closeTaken
  cases (s.pos p).state with
  | closed => rfl
  | ready => rfl
  | wrapup => rfl
  | presenting => exact congrArg State.arbitrate (becomeClosed_withdraw s p)
  | engaged => dsimp only; rw [markClosing_eq, State.arbitrateAfter, positionCalls_markedClosing]

/-- Settles O34: the commands pass R77, and `openTaken_eq` and `closeTaken_eq` spell what they leave. -/
theorem openAndCloseOfAPosition : Obligations.OpenAndCloseOfAPosition := by
  refine ⟨fun s r p upper lock hs hr hf hn hp => ⟨_, rfl, ?_⟩, ?_⟩
  · have hopen := (controlEvent_open hf hn hp).trans (congrArg (Verdict.mk · .taken) (openTaken_eq s p))
    exact (control_done hs hr p (upper ++ 1#8) lock _ _ (by rw [laneOf_zero]; exact hopen)).1
  · intro s r p upper lock hs hr hf closed
    have hclose := (controlEvent_close hf).trans (congrArg (Verdict.mk · .taken) (closeTaken_eq s p))
    exact ⟨_, rfl, (control_done hs hr p (upper ++ 2#8) lock _ _ (by rw [laneOf_zero]; exact hclose)).1⟩

end

end Sys2Proof.Machine
end

section
/-! PROOFS. The READY positions and the calls that wait: what the moves of a position leave of them. -/

namespace Sys2Proof.Machine

open Sys2Proof.Safety

section
variable {s t u : State} {n : SlotNo} {p : PosNo} {v : Slot} {x : Position}

/-! The ready list (R82). -/

/-- The sequencer is in RUN at its last stage alone, and the ready list is the READY positions. -/
structure ReadyListed (s : State) : Prop where
  running : s.seq = .run ↔ s.stage = .running
  list : ReadyListExact s

/-- The parts of the state the ready list is judged by. -/
def State.readyPart (s : State) := (s.seq, s.stage, s.positions, s.readyList)

theorem ReadyListed.of_readyPart (h : ReadyListed s) (e : t.readyPart = s.readyPart) : ReadyListed t := by
  obtain ⟨hseq, hstage, hpositions, hlist⟩ :
      t.seq = s.seq ∧ t.stage = s.stage ∧ t.positions = s.positions ∧ t.readyList = s.readyList := by
    simpa only [State.readyPart, Prod.mk.injEq] using e
  have hpos : ∀ q, t.pos q = s.pos q := fun q => by rw [State.pos, hpositions]; rfl
  constructor
  · rw [hseq, hstage]; exact h.running
  · simpa only [ReadyListExact, hpos, hlist] using h.list

theorem ReadyListed.latch (h : ReadyListed s) (cause : BitVec 8) : ReadyListed (s.latch cause) := h.of_readyPart rfl

theorem ReadyListed.of_kept (h : ReadyListed s) (k : Kept s t) (hl : ReadyListExact t) : ReadyListed t :=
  ⟨by rw [k.seq, k.stage]; exact h.running, hl⟩

theorem ReadyListed.setPos (h : ReadyListed s) (hx : x.state = .ready ↔ (s.pos p).state = .ready) :
    ReadyListed (s.setPos p x) :=
  h.of_kept (kept_setPos s p x) (readyListExact_kept h.list (State.pos_setPos s p · x) rfl hx)

theorem ReadyListed.withdraw (h : ReadyListed s) (p : PosNo) : ReadyListed (s.withdraw p) :=
  h.of_kept (kept_withdraw s p)
    (readyListExact_kept h.list (State.pos_withdraw s p) (State.readyList_withdraw s p) Iff.rfl)

theorem ReadyListed.becomeReady (h : ReadyListed s) (p : PosNo) : ReadyListed (s.becomeReady p) :=
  h.of_kept (kept_becomeReady s p) (readyListExact_appended h.list (s.pos_becomeReady p) rfl rfl)

theorem ReadyListed.becomeClosed (h : ReadyListed s) (p : PosNo) : ReadyListed (s.becomeClosed p) :=
  h.of_kept (kept_becomeClosed s p) (readyListExact_removed h.list (s.pos_becomeClosed p) rfl (by simp [Position.bare]))

theorem ReadyListed.becomeWrapup (h : ReadyListed s) (p : PosNo) : ReadyListed (s.becomeWrapup p) :=
  h.of_kept (kept_becomeWrapup s p) (readyListExact_removed h.list (s.pos_becomeWrapup p) rfl (by simp [Position.bare]))

theorem ReadyListed.retest (h : ReadyListed s) (p : PosNo) : ReadyListed (s.retest p) := by
  unfold State.retest
  split
  · exact h
  · split
    · exact h
    · exact h.withdraw p

theorem ReadyListed.popStack (h : ReadyListed s) (p : PosNo) (top : StackEntry) (rest : List StackEntry) :
    ReadyListed (s.popStack p top rest) := by
  have hback : ReadyListed (s.setSlot top.slot (s.slot top.slot).broughtBack) := h.of_readyPart rfl
  exact (hback.setPos (p := p) (x := (s.pos p).popped top rest) Iff.rfl).retest p

theorem ReadyListed.drained (h : ReadyListed s) : ReadyListed s.drained := by
  unfold State.drained
  split
  · exact h.of_readyPart rfl
  · exact h

theorem ReadyListed.leaveCall (h : ReadyListed s) (p : PosNo) (byHold : Bool) : ReadyListed (s.leaveCall p byHold) := by
  unfold State.leaveCall
  split
  · exact h.popStack p _ _
  · unfold State.leaveEngaged
    dsimp only
    split
    · exact ((h.withdraw p).becomeClosed p).drained
    · split
      · exact (h.withdraw p).becomeReady p
      · exact (h.withdraw p).becomeWrapup p

theorem ReadyListed.releasePresenter (h : ReadyListed s) (p : PosNo) : ReadyListed (s.releasePresenter p) := by
  unfold State.releasePresenter
  split
  · exact h.becomeReady p
  · exact h.setPos Iff.rfl

/-! What asks nothing of the arbiter (R83, R86). -/

/-- Calls are presented where they were, and no position has become READY and no slot waiting: `t` asks nothing of the
arbiter that `s` did not. -/
structure Eases (s t : State) : Prop where
  presents : t.presentsCalls = true → s.presentsCalls = true
  ready : ∀ q, (t.pos q).state = .ready → (s.pos q).state = .ready
  waiting : ∀ m, (t.slot m).disp.isWaiting = true → (s.slot m).disp.isWaiting = true
  listed : ∀ e ∈ t.answerList, e ∈ s.answerList

theorem Eases.refl (s : State) : Eases s s := ⟨id, fun _ => id, fun _ => id, fun _ => id⟩

theorem Eases.trans (h : Eases s t) (k : Eases t u) : Eases s u :=
  ⟨h.presents ∘ k.presents, fun q => h.ready q ∘ k.ready q, fun m => h.waiting m ∘ k.waiting m,
    fun e => h.listed e ∘ k.listed e⟩

theorem eligibleList_eq_nil_iff : s.eligibleList = [] ↔ ∀ e ∈ s.answerList, ¬(s.slot e.slot).disp.isWaiting = true :=
  List.filter_eq_nil_iff

theorem Eases.noneWaits (h : Eases s t) (hs : NoneWaitsAtReady s) : NoneWaitsAtReady t := by
  rintro hp ⟨q, hq⟩
  have hnone := eligibleList_eq_nil_iff.1 (hs (h.presents hp) ⟨q, h.ready q hq⟩)
  exact eligibleList_eq_nil_iff.2 fun e he hw => hnone e (h.listed e he) (h.waiting _ hw)

/-- A slot record that does not wait takes the place of another. -/
theorem eases_setSlot (s : State) (n : SlotNo) (hv : v.disp.isWaiting = false) : Eases s (s.setSlot n v) where
  presents := id
  ready _ := id
  waiting m := by
    rw [State.slot_setSlot]
    split
    · simp [hv]
    · exact id
  listed _ := id

theorem eases_freeSlot (s : State) (n : SlotNo) : Eases s (s.freeSlot n) :=
  (eases_setSlot s n rfl).trans ⟨id, fun _ => id, fun _ => id, fun _ he => (List.mem_filter.1 he).1⟩

/-- A position record that is not newly READY takes the place of another. -/
theorem eases_of_pos (hp : t.presentsCalls = s.presentsCalls) (hs : t.slots = s.slots)
    (hl : t.answerList = s.answerList) (hpos : ∀ q, t.pos q = if q = p then x else s.pos q)
    (hx : x.state = .ready → (s.pos p).state = .ready) : Eases s t where
  presents h := hp ▸ h
  ready q := by
    rw [hpos]
    split
    · rename_i e; exact e ▸ hx
    · exact id
  waiting m := by rw [State.slot, hs]; exact id
  listed _ := by rw [hl]; exact id

theorem eases_setPos (hx : x.state = .ready → (s.pos p).state = .ready) : Eases s (s.setPos p x) :=
  eases_of_pos rfl rfl rfl (State.pos_setPos s p · x) hx

theorem eases_becomeReady (h : (s.pos p).state = .ready) : Eases s (s.becomeReady p) :=
  eases_of_pos rfl rfl rfl (s.pos_becomeReady p) fun _ => h

theorem eases_becomeClosed (s : State) (p : PosNo) : Eases s (s.becomeClosed p) :=
  eases_of_pos rfl rfl rfl (s.pos_becomeClosed p) (by simp [Position.bare])

theorem eases_becomeWrapup (s : State) (p : PosNo) : Eases s (s.becomeWrapup p) :=
  eases_of_pos rfl rfl rfl (s.pos_becomeWrapup p) (by simp [Position.bare])

theorem eases_drained (s : State) : Eases s s.drained := by
  unfold State.drained
  split
  · exact ⟨by simp [State.presentsCalls, State.enterNight, State.latch], fun _ => id, fun _ => id,
      fun _ => id⟩
  · exact Eases.refl s

/-! How a position leaves a call without a cause for the arbiter (R83). -/

/-- A position that has lost what it presented calls the arbiter. -/
theorem positionCalls_of_lost {old new : Position} {m : SlotNo} (ho : old.presented = some m)
    (hn : new.presented = none) : positionCalls old new = true := by
  simp [positionCalls, ho, hn]

/-- A position that has become READY calls the arbiter. -/
theorem ready_of_not_positionCalls {old new : Position} (h : positionCalls old new = false)
    (hn : new.state = .ready) : old.state = .ready := by
  by_contra ho
  simp [positionCalls, hn, ho] at h

theorem pos_drained (s : State) (q : PosNo) : s.drained.pos q = s.pos q := by
  unfold State.drained
  split <;> rfl

/-- Whatever becomes of a position that leaves ENGAGED, it presents nothing. -/
theorem presented_leaveEngaged (s : State) (p : PosNo) (byHold : Bool) :
    ((s.leaveEngaged p byHold).pos p).presented = none := by
  unfold State.leaveEngaged
  dsimp only
  split
  · rw [pos_drained, State.pos_becomeClosed, if_pos rfl]; rfl
  · split
    · rw [State.pos_becomeReady, if_pos rfl]; rfl
    · rw [State.pos_becomeWrapup, if_pos rfl]; rfl

theorem eases_leaveEngaged {byHold : Bool}
    (hc : positionCalls (s.pos p) ((s.leaveEngaged p byHold).pos p) = false) : Eases s (s.leaveEngaged p byHold) := by
  have hnone : (s.pos p).presented = none := by
    refine Option.eq_none_iff_forall_ne_some.2 fun m hm => ?_
    rw [positionCalls_of_lost hm (presented_leaveEngaged s p byHold)] at hc
    exact Bool.noConfusion hc
  simp only [State.leaveEngaged, State.withdraw_none hnone] at hc ⊢
  split at hc
  · rename_i hp
    rw [if_pos hp]
    exact (eases_becomeClosed s p).trans (eases_drained _)
  · rename_i hp
    rw [if_neg hp]
    split at hc
    · rename_i hg
      rw [if_pos hg]
      exact eases_becomeReady (ready_of_not_positionCalls hc (by rw [State.pos_becomeReady, if_pos rfl]; rfl))
    · rename_i hg
      rw [if_neg hg]
      exact eases_becomeWrapup s p

/-- A re-test leaves the offer, or takes it away (R47). -/
theorem retest_cases (s : State) (p : PosNo) :
    s.retest p = s ∨ ((s.retest p).pos p).presented = none ∧ ∃ m, (s.pos p).presented = some m := by
  unfold State.retest
  split
  · exact .inl rfl
  · rename_i m hm
    split
    · exact .inl rfl
    · exact .inr ⟨by rw [State.pos_withdraw, if_pos rfl], m, hm⟩

theorem eases_popStack {top : StackEntry} {rest : List StackEntry}
    (hc : positionCalls (s.pos p) ((s.popStack p top rest).pos p) = false) : Eases s (s.popStack p top rest) := by
  rcases retest_cases ((s.setSlot top.slot (s.slot top.slot).broughtBack).setPos p
    { s.pos p with talking := some top.slot, threshold := some top.threshold, stack := rest }) p with h | ⟨hn, m, hm⟩
  · rw [State.popStack, h]
    exact (eases_setSlot s top.slot rfl).trans (eases_setPos id)
  · have hold : (s.pos p).presented = some m := by rwa [State.pos_setPos_same] at hm
    rw [State.popStack, positionCalls_of_lost hold hn] at hc
    exact Bool.noConfusion hc

/-- Where leaving a call does not call the arbiter, it asks nothing of it. -/
theorem eases_leaveCall {byHold : Bool} (hc : positionCalls (s.pos p) ((s.leaveCall p byHold).pos p) = false) :
    Eases s (s.leaveCall p byHold) := by
  unfold State.leaveCall at hc ⊢
  split
  · rename_i hst
    rw [hst] at hc
    exact eases_popStack hc
  · rename_i hst
    rw [hst] at hc
    exact eases_leaveEngaged hc

/-! No call waits while a position is READY (R86). -/

/-- What every step keeps: the ready list, and that no call waits eligible while a position is READY. -/
structure Attended (s : State) : Prop extends ReadyListed s where
  none_waits : NoneWaitsAtReady s

/-- The parts of the state that this is judged by. -/
def State.waitPart (s : State) := (s.readyPart, s.slots, s.answerList, s.actual, s.nightPending)

theorem Attended.of_waitPart (h : Attended s) (e : t.waitPart = s.waitPart) : Attended t := by
  obtain ⟨hready, hslots, hlist, hactual, hnight⟩ : t.readyPart = s.readyPart ∧ t.slots = s.slots ∧
      t.answerList = s.answerList ∧ t.actual = s.actual ∧ t.nightPending = s.nightPending := by
    simpa only [State.waitPart, Prod.mk.injEq] using e
  obtain ⟨hseq, -, hpositions, -⟩ :
      t.seq = s.seq ∧ t.stage = s.stage ∧ t.positions = s.positions ∧ t.readyList = s.readyList := by
    simpa only [State.readyPart, Prod.mk.injEq] using hready
  refine ⟨h.of_readyPart hready, Eases.noneWaits ⟨?_, fun q => ?_, fun m => ?_, ?_⟩ h.none_waits⟩
  · rw [State.presentsCalls, hseq, hactual, hnight]; exact id
  · rw [State.pos, hpositions]; exact id
  · rw [State.slot, hslots]; exact id
  · rw [hlist]; exact fun _ => id

theorem Attended.eases (h : Attended s) (ht : ReadyListed t) (he : Eases s t) : Attended t :=
  ⟨ht, he.noneWaits h.none_waits⟩

/-- Where no call may be presented, none waits for the arbiter. -/
theorem ReadyListed.attended (h : ReadyListed s) (hp : s.presentsCalls = false) : Attended s :=
  ⟨h, fun k => by simp [hp] at k⟩

/-- The arbiter leaves no candidate or no READY position (R86). -/
theorem ReadyListed.arbitrate (h : ReadyListed s) : Attended s.arbitrate := by
  have hexact := readyListExact_arbitrate h.list
  refine ⟨h.of_kept (kept_arbitrate s) hexact, ?_⟩
  rintro hp ⟨q, hq⟩
  rcases arbitrate_ends h.list with hb | hl
  · rw [bestCandidate_of_presents hp] at hb
    exact bestOf_eq_none_iff.1 hb
  · have hmem := (hexact.2 q).2 hq
    rw [hl] at hmem
    exact absurd hmem List.not_mem_nil

theorem Attended.arbitrateAfter {old : Position} (h : Attended s) (ht : ReadyListed t)
    (he : positionCalls old (t.pos p) = false → Eases s t) : Attended (t.arbitrateAfter p old) := by
  unfold State.arbitrateAfter
  split
  · exact ht.arbitrate
  · rename_i hc
    exact h.eases ht (he (Bool.eq_false_iff.2 hc))

/-- A talking call has left position `p`, and the position leaves it (R38, R43). -/
theorem Attended.leavesCall (h : Attended s) (hu : ReadyListed u) (he : Eases s u) (hpos : u.pos p = s.pos p)
    (byHold : Bool) : Attended ((u.leaveCall p byHold).arbitrateAfter p (s.pos p)) :=
  h.arbitrateAfter (hu.leaveCall p byHold) fun hc => he.trans (eases_leaveCall (hpos ▸ hc))

end

end Sys2Proof.Machine
end

section
/-! PROOFS. No call waits at a READY position: line events, actions, CONTROL commands and the mode. -/

namespace Sys2Proof.Machine

open Sys2Proof.Safety

section
variable {s t : State} {n : SlotNo} {p : PosNo} {v : Slot}

/-! Line events (R15 to R28). -/

/-- A slot record that does not wait takes the place of another, at no position. -/
theorem Attended.setSlot (h : Attended s) (hv : v.disp.isWaiting = false) : Attended (s.setSlot n v) :=
  h.eases (h.of_readyPart rfl) (eases_setSlot s n hv)

theorem Attended.freeSlot (h : Attended s) (n : SlotNo) : Attended (s.freeSlot n) :=
  h.eases (h.of_readyPart rfl) (eases_freeSlot s n)

theorem Attended.abandonWaiting (h : Attended s) (n : SlotNo) : Attended (s.abandonWaiting n) :=
  (h.freeSlot n).of_waitPart rfl

theorem Attended.abandonTalking (h : Attended s) (n : SlotNo) : Attended (s.abandonTalking n) := by
  unfold State.abandonTalking
  split
  · exact h.leavesCall (u := s.freeSlot n) (h.of_readyPart rfl) (eases_freeSlot s n) rfl false
  · exact h.freeSlot n

theorem Attended.abandonSplit (h : Attended s) (n : SlotNo) : Attended (s.abandonSplit n) := by
  have hfree : ReadyListed (s.freeSlot n) := h.of_readyPart rfl
  unfold State.abandonSplit
  split
  · exact h.arbitrateAfter (hfree.setPos Iff.rfl) fun _ => (eases_freeSlot s n).trans (eases_setPos id)
  · exact h.freeSlot n

theorem Attended.abandonPresented (h : Attended s) (n : SlotNo) : Attended (s.abandonPresented n) := by
  have hgone : ReadyListed (s.abandonWaiting n) := h.of_readyPart rfl
  unfold State.abandonPresented
  dsimp only
  split
  · exact (hgone.releasePresenter _).arbitrate
  · exact hgone.arbitrate

theorem Attended.abandonEvent (h : Attended s) (n : SlotNo) : Attended (s.abandonEvent n).state := by
  unfold State.abandonEvent
  split
  · exact h
  · exact h.abandonWaiting n
  · exact h.abandonWaiting n
  · exact h.abandonPresented n
  · exact h.abandonTalking n
  · exact h.abandonSplit n
  · exact h.freeSlot n
  · exact h.freeSlot n
  · exact h.freeSlot n

theorem Attended.recallSlot_arbitrate (h : Attended s) (n : SlotNo) : Attended (s.recallSlot n).arbitrate := by
  refine ReadyListed.arbitrate ?_
  exact h.of_readyPart rfl

theorem Attended.lineEvent (h : Attended s) (n : SlotNo) (code : BitVec 8) (g : GroupNo) :
    Attended (s.lineEvent n code g).state := by
  unfold State.lineEvent
  split
  · unfold State.offerEvent
    split
    · split
      · exact h
      · refine ReadyListed.arbitrate ?_
        exact h.of_readyPart rfl
    · exact h
  · exact h.abandonEvent n
  · unfold State.extAnswerEvent
    split
    · exact h.freeSlot n
    · exact h
  · unfold State.extBusyEvent
    split
    · exact h.setSlot rfl
    · exact h
  · unfold State.extFreeEvent
    split
    · exact h.setSlot rfl
    · exact h
  · unfold State.extFailEvent
    split
    · exact h.recallSlot_arbitrate n
    · exact h
  · exact h

/-! Actions (R30 to R42). -/

theorem ReadyListed.clearForAnswer (h : ReadyListed s) (n : SlotNo) (p : PosNo) :
    ReadyListed (s.clearForAnswer n p) := by
  have hends : ReadyListed (s.endElsewhere n p) := by
    unfold State.endElsewhere
    split
    · split
      · exact h
      · exact h.releasePresenter _
    · exact h
  unfold State.clearForAnswer
  split
  · exact hends.withdraw p
  · exact hends

theorem ReadyListed.pushTalking (h : ReadyListed s) (p : PosNo) : ReadyListed (s.pushTalking p) := by
  unfold State.pushTalking
  split
  · rename_i m _ _ _ _
    have haside : ReadyListed (s.setSlot m (s.slot m).setAside) := h.of_readyPart rfl
    exact haside.setPos Iff.rfl
  · exact h

/-- The position that answers is ENGAGED, and in no ready list (R35). -/
theorem ReadyListed.seated (h : ReadyListed s) (n : SlotNo) (p : PosNo) (v : Slot) (c : Class) (al : List Listed)
    (ct : Vector Counters 32) : ReadyListed (s.seated n p v c al ct) :=
  ⟨h.running, readyListExact_removed h.list (State.pos_setPos (s.setSlot n v) p · _) rfl
    (by simp [Position.engagedWith])⟩

theorem ReadyListed.answerTaken (h : ReadyListed s) (n : SlotNo) (p : PosNo) : Attended (s.answerTaken n p) := by
  obtain ⟨ct, heq⟩ := answerTaken_eq s n p
  rw [heq]
  exact ((((h.clearForAnswer n p).pushTalking p).seated n p _ _ _ ct).retest p).arbitrate

theorem ReadyListed.swapTaken (h : ReadyListed s) (n : SlotNo) (p : PosNo) (top : StackEntry)
    (rest : List StackEntry) : Attended (s.swapTaken n p top rest) := by
  refine ReadyListed.arbitrate (ReadyListed.retest (h.of_kept (by constructor <;> rfl) ?_) p)
  exact readyListExact_kept h.list (State.pos_setPos _ p · _) rfl Iff.rfl

theorem Attended.answerAction (h : Attended s) (n : SlotNo) (p : PosNo) : Attended (s.answerAction n p).state := by
  unfold State.answerAction
  split
  · split
    · exact h
    · split
      · exact h
      · exact h.answerTaken n p
  · exact h

theorem Attended.holdAction (h : Attended s) (n : SlotNo) (p : PosNo) : Attended (s.holdAction n p).state := by
  unfold State.holdAction
  split
  · exact h
  · exact h.leavesCall (u := s.setSlot n _) (h.of_readyPart rfl) (eases_setSlot s n rfl) rfl true

theorem Attended.swapAction (h : Attended s) (n : SlotNo) (p : PosNo) : Attended (s.swapAction n p).state := by
  unfold State.swapAction
  split
  · exact h
  · split
    · exact h
    · exact h.swapTaken n p _ _

theorem Attended.extendAction (h : Attended s) (n : SlotNo) (p : PosNo) : Attended (s.extendAction n p).state := by
  unfold State.extendAction
  split
  · exact h
  · exact h.leavesCall (u := s.setSlot n _) (h.of_readyPart rfl) (eases_setSlot s n rfl) rfl false

theorem Attended.releaseAction (h : Attended s) (n : SlotNo) (p : PosNo) : Attended (s.releaseAction n p).state := by
  unfold State.releaseAction
  split
  · exact h.freeSlot n
  · split
    · exact h
    · exact h.leavesCall (u := s.freeSlot n) (h.of_readyPart rfl) (eases_freeSlot s n) rfl false

theorem Attended.actionEvent (h : Attended s) (n : SlotNo) (code field : BitVec 8) :
    Attended (s.actionEvent n code field).state := by
  unfold State.actionEvent
  split
  next => exact h
  next a _ =>
    split
    next => exact h
    next p _ =>
      cases a with
      | answer => exact h.answerAction n p
      | hold => exact h.holdAction n p
      | swap => exact h.swapAction n p
      | extend => exact h.extendAction n p
      | release => exact h.releaseAction n p

/-! CONTROL commands (R77 to R81). -/

theorem Attended.openTaken (h : Attended s) (p : PosNo) : Attended (s.openTaken p) := by
  unfold State.openTaken
  split
  · exact ((h.setPos (x := { s.pos p with misses := 0 }) Iff.rfl).becomeReady p).arbitrate
  · exact h

theorem Attended.becomeClosed (h : Attended s) (p : PosNo) : Attended (s.becomeClosed p) :=
  h.eases (h.toReadyListed.becomeClosed p) (eases_becomeClosed s p)

/-- A position that lost no offer calls no arbiter and leaves the waiting calls as they were (R81). -/
theorem eases_markedClosing (hc : positionCalls (s.pos p) ((s.markedClosing p).pos p) = false) :
    Eases s (s.markedClosing p) := by
  rw [positionCalls_markedClosing, Option.isSome_eq_false_iff, Option.isNone_iff_eq_none] at hc
  rw [← markClosing_eq, State.withdraw_none hc]
  exact eases_setPos id

theorem ReadyListed.markedClosing (h : ReadyListed s) (p : PosNo) : ReadyListed (s.markedClosing p) := by
  rw [← markClosing_eq]
  exact (h.withdraw p).setPos Iff.rfl

theorem Attended.closeTaken (h : Attended s) (p : PosNo) : Attended (s.closeTaken p) := by
  unfold State.closeTaken
  cases (s.pos p).state with
  | closed => exact h
  | ready => exact h.becomeClosed p
  | wrapup => exact h.becomeClosed p
  | presenting => exact ((h.withdraw p).becomeClosed p).arbitrate
  | engaged =>
    dsimp only
    rw [markClosing_eq]
    exact h.arbitrateAfter (h.markedClosing p) eases_markedClosing

theorem Attended.controlEvent (h : Attended s) (p : PosNo) (code : BitVec 8) :
    Attended (s.controlEvent p code).state := by
  unfold State.controlEvent
  split
  · split
    · split
      · exact h
      · exact h.openTaken p
    · exact h
  · split
    · exact h.closeTaken p
    · exact h
  · exact h

/-! The Mode Unit (R116 to R125). -/

/-- What every position's turn keeps of the ready list, all positions' turns keep. -/
theorem ReadyListed.foldPositions {f : State → PosNo → State} (hf : ∀ u q, ReadyListed u → ReadyListed (f u q))
    (l : List PosNo) (h : ReadyListed s) : ReadyListed (l.foldl f s) := by
  induction l generalizing s with
  | nil => exact h
  | cons q l ih => exact ih (hf s q h)

theorem ReadyListed.nightClose (h : ReadyListed s) (p : PosNo) : ReadyListed (s.nightClose p) := by
  unfold State.nightClose
  split
  · exact h
  · exact (h.withdraw p).setPos Iff.rfl
  · exact (h.withdraw p).becomeClosed p

/-- In NIGHT no call may be presented (R57, R119). -/
theorem ReadyListed.enterNight (h : ReadyListed s) : Attended s.enterNight :=
  ReadyListed.attended (h.of_readyPart rfl) (by simp [State.presentsCalls, State.enterNight, State.latch])

/-- While a night request is pending no call may be presented (R57, R118). -/
theorem ReadyListed.nightPending (h : ReadyListed s) : Attended { s with nightPending := true } :=
  ReadyListed.attended (h.of_readyPart rfl) (by simp [State.presentsCalls])

theorem ReadyListed.nightRequest (h : ReadyListed s) : Attended s.nightRequest := by
  have hclosed := h.foldPositions (f := State.nightClose) (fun _ q k => k.nightClose q) allPositions
  unfold State.nightRequest
  dsimp only
  split
  · exact hclosed.enterNight
  · exact hclosed.nightPending

theorem Attended.takeMode (h : Attended s) (m : Service) : Attended (s.takeMode m) := by
  have hasked : Attended { s with requested := m } := h.of_waitPart rfl
  unfold State.takeMode
  dsimp only
  split
  · split
    · exact hasked
    · exact hasked.nightRequest
  · split
    · refine ReadyListed.arbitrate ?_
      exact h.of_readyPart rfl
    · exact hasked
  · refine ReadyListed.arbitrate ?_
    exact h.of_readyPart rfl
  · exact hasked
  · exact hasked

theorem Attended.takeHeartbeat (h : Attended s) : Attended s.takeHeartbeat := by
  unfold State.takeHeartbeat
  split
  · exact h.of_waitPart rfl
  · exact h
  · split
    · refine ReadyListed.arbitrate ?_
      exact h.of_readyPart rfl
    · refine ReadyListed.nightRequest ?_
      exact h.of_readyPart rfl

theorem actual_lapsePosition (s : State) (p : PosNo) : (s.lapsePosition p).actual = s.actual := by
  have hw : (s.withdraw p).actual = s.actual := by
    unfold State.withdraw
    split <;> rfl
  unfold State.lapsePosition
  split
  · exact hw
  · exact hw
  · rfl

theorem ReadyListed.lapsePosition (h : ReadyListed s) (p : PosNo) : ReadyListed (s.lapsePosition p) := by
  unfold State.lapsePosition
  split
  · exact (h.withdraw p).becomeReady p
  · exact h.withdraw p
  · exact h

/-- In LAPSED no call may be presented (R57, R123). -/
theorem ReadyListed.lapse (h : ReadyListed s) : Attended s.lapse := by
  have hstart : ReadyListed { s with supervision := none, actual := .lapsed } := h.of_readyPart rfl
  have hlapsed := hstart.foldPositions (f := State.lapsePosition) (fun _ q k => k.lapsePosition q) allPositions
  have hactual : ∀ (l : List PosNo) (u : State), (l.foldl State.lapsePosition u).actual = u.actual := by
    intro l
    induction l with
    | nil => exact fun _ => rfl
    | cons q l ih => exact fun u => (ih _).trans (actual_lapsePosition u q)
  exact ReadyListed.attended (hlapsed.latch _) (by simp [State.presentsCalls, State.lapse, hactual])

end

end Sys2Proof.Machine
end

section
/-! PROOFS. No call waits at a READY position: ticks and expiries. -/

namespace Sys2Proof.Machine

open Sys2Proof.Safety

section
variable {s t : State} {n : SlotNo} {p : PosNo}

theorem waitPart_posting (s before : State) : (s.posting before).waitPart = s.waitPart := by
  obtain ⟨posts, owed, h, -⟩ := givePosts_spec s (changedPosts before s) (changedPosts_nodup before s)
  rw [State.posting, h]
  rfl

theorem Attended.posting (h : Attended s) (before : State) : Attended (s.posting before) :=
  h.of_waitPart (waitPart_posting s before)

theorem ReadyListed.missAt (h : ReadyListed s) (p : PosNo) : ReadyListed (s.missAt p) := by
  have hcount : ReadyListed ((s.withdraw p).setPos p { (s.withdraw p).pos p with
      misses := satInc ((s.withdraw p).pos p).misses }) := (h.withdraw p).setPos Iff.rfl
  have hmissed := hcount.latch causeMiss
  unfold State.missAt
  dsimp only
  split
  · exact (hmissed.becomeClosed p).latch causeAutoclose
  · exact hmissed.becomeReady p

theorem Attended.presentationExpires (h : Attended s) (n : SlotNo) : Attended (s.presentationExpires n) := by
  unfold State.presentationExpires
  split
  · split
    · exact (h.missAt _).arbitrate.posting s
    · exact h
  · exact h

theorem Attended.offerExpires (h : Attended s) (n : SlotNo) : Attended (s.offerExpires n) := by
  unfold State.offerExpires
  split
  · split
    · exact (h.withdraw _).arbitrate.posting s
    · exact h
  · exact h

theorem Attended.recallExpiry (h : Attended s) (n : SlotNo) (d : Disp) : Attended (s.recallExpiry n d) := by
  unfold State.recallExpiry
  split
  · exact (h.recallSlot_arbitrate n).posting s
  · exact h

theorem Attended.wrapUpExpires (h : Attended s) (p : PosNo) : Attended (s.wrapUpExpires p) := by
  unfold State.wrapUpExpires
  split
  · exact (h.becomeReady p).arbitrate.posting s
  · exact h

theorem Attended.supervisionExpires (h : Attended s) : Attended s.supervisionExpires := by
  unfold State.supervisionExpires
  split
  · exact h.lapse.posting s
  · exact h

theorem ageSlot_eq (s : State) (n : SlotNo) : ∃ sl, s.ageSlot n = { s with slots := sl } := by
  unfold State.ageSlot
  split <;> exact ⟨_, rfl⟩

theorem ageListed_eq (s : State) : ∃ sl, s.ageListed = { s with slots := sl } := by
  have fold : ∀ (l : List Listed) (u : State), (∃ sl, u = { s with slots := sl }) →
      ∃ sl, l.foldl (fun t e => t.ageSlot e.slot) u = { s with slots := sl } := by
    intro l
    induction l with
    | nil => exact fun _ hu => hu
    | cons e l ih =>
      rintro u ⟨sl, rfl⟩
      obtain ⟨sl', h⟩ := ageSlot_eq { s with slots := sl } e.slot
      exact ih _ ⟨sl', h⟩
  exact fold s.answerList s ⟨s.slots, rfl⟩

/-- The second tick rescores the list and calls the arbiter (R59, R83). -/
theorem Attended.queueSecond (h : Attended s) : Attended s.queueSecond := by
  unfold State.queueSecond
  split
  · refine Attended.posting (ReadyListed.arbitrate ?_) s
    obtain ⟨sl, heq⟩ := ageListed_eq { s with secondAtQueue := false }
    rw [heq]
    exact h.of_readyPart rfl
  · exact h

theorem disp_aged (sl : Slot) : sl.aged.disp = sl.disp := by
  unfold Slot.aged
  split <;> rfl

theorem Attended.slotSecond (h : Attended s) : Attended s.slotSecond := by
  unfold State.slotSecond
  split
  · refine h.eases (h.of_readyPart rfl) ⟨id, fun _ => id, fun m => ?_, fun _ => id⟩
    have hdisp : (mapVec Slot.aged s.slots)[m].disp = (s.slot m).disp := by rw [mapVec_get, disp_aged]; rfl
    exact fun hw => (congrArg Disp.isWaiting hdisp).symm.trans hw
  · exact h

theorem Attended.slotDue (h : Attended s) (n : SlotNo) : Attended (s.slotDue n) := by
  unfold State.slotDue
  split
  · exact (h.presentationExpires n).offerExpires n
  · exact h.recallExpiry n _
  · exact h.recallExpiry n _
  · exact h.recallExpiry n _
  · exact h

/-- What every turn keeps, all turns of a list keep. -/
theorem Attended.foldl {α : Type} {f : State → α → State} (hf : ∀ u a, Attended u → Attended (f u a))
    (l : List α) (h : Attended s) : Attended (l.foldl f s) := by
  induction l generalizing s with
  | nil => exact h
  | cons a l ih => exact ih (hf s a h)

theorem Attended.takeDue (h : Attended s) : Attended s.takeDue := by
  have hslots := h.foldl (f := State.slotDue) (fun _ m k => k.slotDue m) allSlots
  have hpositions := hslots.foldl (f := State.wrapUpExpires) (fun _ q k => k.wrapUpExpires q) allPositions
  exact hpositions.supervisionExpires.queueSecond.slotSecond

theorem waitPart_tick (s : State) : s.tick.waitPart = s.waitPart := rfl

theorem Attended.callTick (h : Attended s) : Attended s.callTick := h.takeDue.of_waitPart (waitPart_tick _)

theorem Attended.clkref (h : Attended s) : Attended s.clkref := by
  unfold State.clkref
  split
  · exact h.of_waitPart rfl
  · exact h.callTick

end

end Sys2Proof.Machine
end

section
/-! PROOFS. No call waits at a READY position: the bus, the start-up sequence and every step. -/

namespace Sys2Proof.Machine

open Sys2Proof.Safety

section
variable {s t : State} {n : SlotNo} {p : PosNo}

/-! Window writes (R147). -/

theorem Attended.raiseFault (h : Attended s) (f : FaultEntry) : Attended (s.raiseFault f) := by
  unfold State.raiseFault
  split <;> exact h.of_waitPart rfl

theorem Attended.acknowledge (h : Attended s) (c : BitVec 8) : Attended (s.acknowledge c) := by
  unfold State.acknowledge
  dsimp only
  split <;> exact h.of_waitPart rfl

theorem Attended.lineEffect (h : Attended s) (txn : Txn) (r : Reached) (n : SlotNo) :
    Attended (s.lineEffect txn r n).state := by
  unfold State.lineEffect
  dsimp only [State.commandEffect]
  split
  · exact h.lineEvent n _ _
  · exact h.raiseFault _

theorem Attended.settingEffect (h : Attended s) (txn : Txn) (r : Reached) (w : SettingWord) :
    Attended (s.settingEffect txn r w).state := by
  have hshadowed : ∀ u : Settings, Attended { s with settings := u } := fun u => h.of_waitPart rfl
  unfold State.settingEffect
  dsimp only
  split
  · exact (hshadowed _).takeMode _
  · exact hshadowed _

theorem Attended.rightfulEffect (h : Attended s) (txn : Txn) (r : Reached) :
    Attended (s.rightfulEffect txn r).state := by
  unfold State.rightfulEffect
  split
  · exact h.raiseFault _
  · split
    · exact h.acknowledge _
    · exact h.actionEvent _ _ _
    · exact h.lineEffect _ _ _
    · exact h.controlEvent _ _
    · exact h.takeHeartbeat
    · unfold State.restartEffect
      split <;> exact h
    · exact h.settingEffect _ _ _
    · exact h.of_waitPart rfl
    · exact h.of_waitPart rfl
    · unfold State.viewEffect
      split <;> exact h
    · exact h

theorem Attended.writeEffect (h : Attended s) (txn : Txn) (r : Reached) : Attended (s.writeEffect txn r).state := by
  unfold State.writeEffect
  split
  · exact h.rightfulEffect txn r
  · unfold State.strayEffect
    dsimp only
    split <;> exact h.raiseFault _

/-! The C-side bus. -/

/-- Every reset closes the positions and leaves RUN (R189). -/
theorem attended_resetBlocks (s : State) (cause : ResetCause) {phase : Seq} (hp : phase ≠ .run) :
    Attended (s.resetBlocks cause phase) := by
  refine ReadyListed.attended ⟨iff_of_false hp (by simp [State.resetBlocks, State.reset]), List.nodup_nil, fun q => ?_⟩
    (by simp [State.presentsCalls, State.resetBlocks, hp])
  simp [State.resetBlocks, State.reset, State.pos, Position.empty]

theorem Attended.perform (h : Attended s) (a : Access) : Attended (s.perform a) := by
  cases a with
  | nothing => exact h.of_waitPart rfl
  | write addr lanes data => exact h.of_waitPart rfl
  | restart addr data => exact attended_resetBlocks _ _ (by decide)
  | read addr off => exact h.of_waitPart rfl

theorem Attended.complete (h : Attended s) (txn : Txn) (b : List Post) (a : Access) :
    Attended (s.complete txn b a) := by
  unfold State.complete
  split
  · exact h.perform a
  · exact h.of_waitPart rfl

theorem waitPart_postingExcept (s before : State) (off : Offset) :
    (s.postingExcept before off).waitPart = s.waitPart := by
  obtain ⟨posts, owed, h, -⟩ := givePosts_spec (s.dropPost off)
    ((changedPosts before s).filter fun g => decide (g.offset ≠ off))
    ((changedPosts_nodup before s).sublist (List.filter_sublist.map _))
  rw [State.postingExcept, h]
  rfl

theorem Attended.finishWrite {e : WriteEffect} (h : Attended e.state) (before : State) (txn : Txn)
    (lock : Option Lock) : Attended (State.finishWrite before txn lock e) := by
  have hlock : Attended { e.state with lock := lock } := h.of_waitPart rfl
  unfold State.finishWrite
  refine Attended.complete ?_ _ _ _
  split
  · exact hlock.of_waitPart (waitPart_postingExcept _ _ _)
  · exact hlock.posting _

theorem Attended.take (h : Attended s) (txn : Txn) : Attended (s.take txn) := by
  unfold State.take
  split
  · exact h.complete _ _ _
  · split
    · unfold State.takeWindow
      dsimp only
      split
      · exact (h.writeEffect txn _).finishWrite _ _ _
      · refine Attended.complete ?_ _ _ _
        exact h.of_waitPart rfl
    · exact h.of_waitPart rfl

theorem Attended.arrive (h : Attended s) (txn : Txn) : Attended (s.arrive txn) := by
  unfold State.arrive
  split
  · exact h.of_waitPart rfl
  · exact h.take txn

theorem Attended.resumeBus (h : Attended s) : Attended s.resumeBus := by
  have hfree : Attended { s with bus := [] } := h.of_waitPart rfl
  exact hfree.foldl (f := State.arrive) (fun _ txn k => k.arrive txn) s.bus

theorem Attended.issueOwed (h : Attended s) : Attended s.issueOwed := by
  unfold State.issueOwed
  split
  · exact h
  · dsimp only
    split
    · exact h.of_waitPart rfl
    · split
      · refine Attended.resumeBus (Attended.perform ?_ _)
        exact h.of_waitPart rfl
      · exact h.of_waitPart rfl

theorem Attended.issuePost (h : Attended s) : Attended s.issuePost := by
  unfold State.issuePost
  split
  · split
    · exact h.of_waitPart rfl
    · exact h
  · exact h

theorem attended_resetFromPin (s : State) (cause : ResetCause) {phase : Seq} (hp : phase ≠ .run) :
    Attended (s.resetFromPin cause phase) :=
  (attended_resetBlocks _ _ hp).resumeBus

/-! The Start-Up Sequencer (chapter 12). -/

/-- An access of the sequencer before RUN leaves the positions, and no call may be presented (R57). -/
theorem Attended.beforeRun (h : Attended s) (hst : s.stage ≠ .running) (hst' : t.stage ≠ .running)
    (hseq : t.seq = s.seq) (hp : t.positions = s.positions) (hl : t.readyList = s.readyList) : Attended t := by
  have hrun : t.seq ≠ .run := fun k => hst (h.running.1 (hseq.symm.trans k))
  have hpos : ∀ q, t.pos q = s.pos q := fun q => by rw [State.pos, hp]; rfl
  refine ReadyListed.attended ⟨iff_of_false hrun hst', ?_⟩ (by simp [State.presentsCalls, hrun])
  simpa only [ReadyListExact, hpos, hl] using h.list

theorem Attended.openingStep (h : Attended s) : Attended s.openingStep := by
  unfold State.openingStep
  split
  · rename_i hst
    exact h.beforeRun (by simp [hst]) (by dsimp only; split <;> simp) rfl rfl rfl
  · exact h

theorem Attended.fillStep (h : Attended s) : Attended s.fillStep := by
  unfold State.fillStep
  split
  · rename_i hst
    exact h.beforeRun (by simp [hst]) (by dsimp only; split <;> simp) rfl rfl rfl
  · exact h

theorem Attended.sweepSettingStep (h : Attended s) : Attended s.sweepSettingStep := by
  unfold State.sweepSettingStep
  split
  · rename_i hst
    dsimp only
    split <;> exact h.beforeRun (by simp [hst]) (by dsimp only [State.putWord]; split <;> simp) rfl rfl rfl
  · exact h

theorem adoptionNext_ne_running (n : SlotNo) : adoptionNext n ≠ .running := by
  unfold adoptionNext
  split <;> simp

theorem Attended.adoptStep (h : Attended s) : Attended s.adoptStep := by
  cases hst : s.stage with
  | adopting n =>
    obtain ⟨la, fa, ov, m, u, heq⟩ := adoptStep_eq hst
    rw [heq]
    exact h.beforeRun (by simp [hst]) (adoptionNext_ne_running n) rfl rfl rfl
  | _ => rw [State.adoptStep, hst]; exact h

theorem Attended.closingStep (h : Attended s) : Attended s.closingStep := by
  by_cases hst : s.stage = .closing
  · obtain ⟨m, heq⟩ := closingStep_eq hst
    rw [heq]
    exact h.beforeRun (by simp [hst]) (by simp) rfl rfl rfl
  · rwa [State.closingStep, if_neg hst]

/-- At entry to RUN the arbiter acts on the calls adopted (R83, R195). -/
theorem Attended.entryStep (h : Attended s) : Attended s.entryStep := by
  have hentered : ReadyListed s.entered := ⟨iff_of_true rfl rfl, h.list⟩
  unfold State.entryStep
  split
  · rw [enterRun_eq]
    refine (ReadyListed.arbitrate ?_).resumeBus
    split
    · exact hentered.of_readyPart rfl
    · exact hentered
  · exact h

/-! The commands and the step. -/

theorem Attended.exec (h : Attended s) (c : Instr) (he : exec c s = .next t) : Attended t := by
  cases hb : busTxn s c with
  | some txn =>
    rw [exec_bus s c hb] at he
    rw [← Host.Outcome.next.inj he]
    have hpins : Attended { s with pins := busPins s c } := h.of_waitPart rfl
    exact hpins.arrive txn
  | none =>
    cases c <;> simp only [busTxn, reduceCtorEq] at hb <;> rw [← Host.Outcome.next.inj he]
    case powerOnReset => exact attended_resetFromPin _ _ (by decide)
    case resetN => exact attended_resetFromPin _ _ (by decide)
    case openingWrite => exact h.openingStep
    case fill => exact h.fillStep
    case sweepSettingRead => exact h.sweepSettingStep
    case adoption => exact h.adoptStep
    case closingWrites => exact h.closingStep
    case entryToRun => exact h.entryStep
    case callTick => exact h.callTick
    case secondTick => exact h.queueSecond
    case slotSecondTick => exact h.slotSecond
    case presentationExpiry n => exact h.presentationExpires n
    case breakInOfferExpiry n => exact h.offerExpires n
    case holdRecallExpiry n => exact h.recallExpiry n .held
    case transferRecallExpiry n => exact h.recallExpiry n .extended
    case campRecallExpiry n => exact h.recallExpiry n .camped
    case wrapUpExpiry p => exact h.wrapUpExpires p
    case supervisionExpiry => exact h.supervisionExpires
    case post => exact h.issuePost
    case owedIssue => exact h.issueOwed

end

/-- Settles O7: every event either ends with the arbiter, which leaves no candidate or no READY position, or asks
nothing of it (`Eases`). -/
theorem stepLeavesNoCallWaitingAtAReadyPosition : Obligations.StepLeavesNoCallWaitingAtAReadyPosition := by
  intro s t hrun hlist hnone hstep
  suffices hend : Attended t from ⟨hend.running, hend.list, hend.none_waits⟩
  have h : Attended s := ⟨⟨hrun, hlist⟩, hnone⟩
  unfold step at hstep
  split at hstep
  · rw [← Host.Outcome.next.inj hstep]
    exact h.clkref
  · rename_i c rest _
    have hrest : Attended { s with pending := rest } := h.of_waitPart rfl
    exact hrest.exec c hstep

end Sys2Proof.Machine
end

section
/-! PROOFS. The deadline arithmetic of the Call Clock (R104, R105, R109). -/

namespace Sys2Proof.Machine

open Sys2Proof.Safety

/-! Arming. -/

theorem armAt_zero (now : Tick) : armAt now 0 = none := rfl

/-- An interval of n seconds is 10 × n call ticks (R104). -/
theorem armAt_of_ne_zero (now : Tick) {n : BitVec 8} (hn : n ≠ 0) :
    armAt now n = some (now + BitVec.ofNat 16 (10 * n.toNat)) := by
  have hticks : 10#16 * n.setWidth 16 = BitVec.ofNat 16 (10 * n.toNat) := by
    rw [BitVec.ofNat_mul, BitVec.ofNat_toNat]
  rw [armAt, if_neg hn, hticks]

/-! The expiry test and the remaining time, of any deadline. -/

theorem tick_sub_toNat (a b : Tick) : (a - b).toNat = (a.toNat + 65536 - b.toNat) % 65536 := by
  have hb := b.isLt
  rw [BitVec.toNat_sub]
  omega

theorem expiredAt_none (now : Tick) : expiredAt now none = false := rfl

theorem remainingAt_none (now : Tick) : remainingAt now none = 0 := rfl

theorem expiredAt_some (now d : Tick) :
    expiredAt now (some d) = decide ((now.toNat + 65536 - d.toNat) % 65536 < 32768) := by
  rw [expiredAt, tick_sub_toNat]

theorem remainingAt_some (now d : Tick) :
    remainingAt now (some d) = ((d.toNat + 65536 - now.toNat) % 65536 + 9) / 10 := by
  rw [remainingAt, tick_sub_toNat]

/-! The course of a timer, k of its m call ticks after it was armed. -/

theorem ticksLeft_toNat (now : Tick) {k m : Nat} (hk : k ≤ m) (hm : m < 65536) :
    (now + BitVec.ofNat 16 m - (now + BitVec.ofNat 16 k)).toNat = m - k := by
  rw [tick_sub_toNat, BitVec.toNat_add, BitVec.toNat_add, BitVec.toNat_ofNat, BitVec.toNat_ofNat]
  omega

/-- The deadline is not behind the count before its own tick, so the half-range test finds it at that tick alone (R105). -/
theorem expiredAt_after_arming (now : Tick) {n : BitVec 8} {k : Nat} (hn : n ≠ 0) (hk : k ≤ 10 * n.toNat) :
    expiredAt (now + BitVec.ofNat 16 k) (armAt now n) = true ↔ k = 10 * n.toNat := by
  have hlt := n.isLt
  have hleft := ticksLeft_toNat now hk (by omega)
  have hnot : NotBehind (now + BitVec.ofNat 16 k) (armAt now n) := by
    intro d hd
    rw [armAt_of_ne_zero now hn] at hd
    rw [← Option.some.inj hd, hleft]
    omega
  rw [expiredAt_iff hnot, armAt_of_ne_zero now hn, Option.some.injEq]
  constructor
  · intro hcome
    rw [hcome, BitVec.sub_self, BitVec.toNat_zero] at hleft
    omega
  · rintro rfl
    rfl

theorem remainingAt_after_arming (now : Tick) {n : BitVec 8} {k : Nat} (hn : n ≠ 0) (hk : k ≤ 10 * n.toNat) :
    remainingAt (now + BitVec.ofNat 16 k) (armAt now n) = (10 * n.toNat - k + 9) / 10 := by
  have hlt := n.isLt
  rw [armAt_of_ne_zero now hn, remainingAt, ticksLeft_toNat now hk (by omega)]

/-- Settles O40: each operation's value in `Nat`, and the course of a timer from its arming to its own tick. -/
theorem deadlinesExpireAtTheirCount : Obligations.DeadlinesExpireAtTheirCount := by
  refine ⟨fun now n => ⟨?_, fun hn => ⟨_, armAt_of_ne_zero now hn, ?_⟩⟩, expiredAt_some,
    fun now n k hn hk => ⟨expiredAt_after_arming now hn hk, remainingAt_after_arming now hn hk⟩,
    remainingAt_some, fun now => ⟨expiredAt_none now, remainingAt_none now⟩⟩
  · rintro rfl
    exact armAt_zero now
  · rw [BitVec.toNat_add, BitVec.toNat_ofNat, Nat.add_mod_mod]

end Sys2Proof.Machine
end

section
/-! PROOFS. The lamp images and the outputs as functions of the state (R127, R173 to R179, R183). -/

namespace Sys2Proof.Machine

/-! The lamp images (R175, R176). -/

theorem placeOf_lampCadence : ∀ k : Fin 32, placeOf (BitVec.ofNat 11 (0x100 + k.val)) = .lampCadence k := by decide

theorem placeOf_lampLit : ∀ k : Fin 4, placeOf (BitVec.ofNat 11 (0x120 + k.val)) = .lampLit k := by decide

theorem getLsbD_packBits (f : Nat → Bool) {m : Nat} (hm : m ≤ 32) (i : Nat) :
    (packBits f m).getLsbD i = (decide (i < m) && f i) := by
  induction m with
  | zero => simp [packBits]
  | succ m ih =>
    have hbit : (if f m then BitVec.ofNat 32 (2 ^ m) else 0).getLsbD i = (decide (m = i) && f m) := by
      cases f m with
      | false => simp
      | true =>
        simp only [if_true, BitVec.getLsbD_ofNat, Nat.testBit_two_pow, Bool.and_true, ← Bool.decide_and]
        exact decide_eq_decide.2 (and_iff_right_of_imp fun h => by omega)
    rw [packBits, BitVec.getLsbD_or, ih (by omega), hbit]
    rcases Nat.lt_trichotomy i m with hlt | rfl | hgt
    · simp [hlt, Nat.lt_succ_of_lt hlt, hlt.ne']
    · simp
    · simp [Nat.not_lt_of_gt hgt, Nat.not_lt_of_le hgt, hgt.ne]

theorem laneOf_ofLanes_apply (f : Nat → BitVec 8) (i : Fin 4) :
    laneOf (ofLanes (f 0) (f 1) (f 2) (f 3)) i.val = f i.val := by
  obtain ⟨h0, h1, h2, h3⟩ := laneOf_ofLanes (f 0) (f 1) (f 2) (f 3)
  match i with
  | 0 => exact h0
  | 1 => exact h1
  | 2 => exact h2
  | 3 => exact h3

/-- Each lane of a cadence word holds the code of its slot's lamp. -/
theorem laneOf_lampCadenceWord (s : State) (k : Fin 32) (i : Fin 4) : laneOf (s.lampCadenceWord k) i.val =
    (lampOf (s.slot (Fin.ofNat 128 (4 * k.val + i.val))).disp).code :=
  laneOf_ofLanes_apply (fun j => (lampOf (s.slot (Fin.ofNat 128 (4 * k.val + j))).disp).code) i

/-- Each bit of a lit word says whether its slot's lamp is lit. -/
theorem getLsbD_lampLitWord (s : State) (k : Fin 4) (i : Fin 32) :
    (s.lampLitWord k).getLsbD i.val = s.lampLit (Fin.ofNat 128 (32 * k.val + i.val)) := by
  rw [State.lampLitWord, getLsbD_packBits _ (Nat.le_refl 32), decide_eq_true i.isLt, Bool.true_and]

/-- Splitting a slot number into its word and its place in that word loses nothing. -/
theorem slotNo_div_add_mod (n : SlotNo) (m : Nat) : Fin.ofNat 128 (m * (n.val / m) + n.val % m) = n := by
  rw [Nat.div_add_mod, Fin.ofNat_val_eq_self]

theorem overlay_lampCadence (s : State) (n : SlotNo) :
    (s.overlay (placeOf (BitVec.ofNat 11 (0x100 + n.val / 4)))).map (laneOf · (n.val % 4)) =
      some (lampOf (s.slot n).disp).code := by
  have hlane := laneOf_lampCadenceWord s ⟨n.val / 4, by omega⟩ ⟨n.val % 4, by omega⟩
  rw [slotNo_div_add_mod n 4] at hlane
  rw [placeOf_lampCadence ⟨n.val / 4, by omega⟩, State.overlay, Option.map_some, hlane]

theorem overlay_lampLit (s : State) (n : SlotNo) :
    (s.overlay (placeOf (BitVec.ofNat 11 (0x120 + n.val / 32)))).map (·.getLsbD (n.val % 32)) =
      some (s.lampLit n) := by
  have hbit := getLsbD_lampLitWord s ⟨n.val / 32, by omega⟩ ⟨n.val % 32, by omega⟩
  rw [slotNo_div_add_mod n 32] at hbit
  rw [placeOf_lampLit ⟨n.val / 32, by omega⟩, State.overlay, Option.map_some, hbit]

/-- The phases at which each cadence is lit, by its code (R173, R199). -/
theorem lit_iff_code (l : Lamp) {phi : Nat} (hphi : phi < 10) : l.lit phi = true ↔
    l.code.toNat = 1 ∨ (l.code.toNat = 2 ∧ phi < 5) ∨ (l.code.toNat = 3 ∧ phi ≠ 9) ∨
      (l.code.toNat = 4 ∧ phi % 2 = 0) ∨ (l.code.toNat = 5 ∧ phi = 0) := by
  cases l <;> simp [Lamp.lit, Lamp.code] <;> omega

/-! ATTN_N and NIGHT (R127, R183). -/

theorem attnAsserted_iff (s : State) : s.attnAsserted = true ↔
    ∃ i < 8, s.latched.getLsbD i = true ∧ s.settings.attnEnable.getLsbD i = true := by
  have hzero : s.latched &&& s.settings.attnEnable = 0 ↔
      ∀ i < 8, (s.latched.getLsbD i && s.settings.attnEnable.getLsbD i) = false := by
    simp [BitVec.eq_of_getLsbD_eq_iff]
  rw [State.attnAsserted, decide_eq_true_iff, ne_eq, hzero]
  simp

theorem nightOutput_eq_false_iff (s : State) : s.nightOutput = false ↔ s.seq = .run ∧ s.actual = .day := by
  simp [State.nightOutput]

/-! The sources of the bell (R178). -/

theorem recallWaits_iff (s : State) : s.recallWaits = true ↔ ∃ e ∈ s.answerList, (s.slot e.slot).disp = .recall := by
  simp only [State.recallWaits, State.eligibleList, List.any_filter, List.any_eq_true, Bool.and_eq_true, eligible_iff,
    decide_eq_true_iff]
  exact exists_congr fun e => and_congr_right fun _ => and_iff_right_of_imp Or.inr

theorem rings_iff (s : State) : s.rings = true ↔
    ∃ n : SlotNo, (s.slot n).disp = .presented ∧ (s.slot n).breakIn = false := by
  simp [State.rings, allSlots]

theorem nightCallWaits_iff (s : State) : s.nightCallWaits = true ↔
    ∃ e ∈ s.answerList, ((s.slot e.slot).disp = .queued ∨ (s.slot e.slot).disp = .recall) ∧
      s.settings.nightBell ≤ (s.group (s.slot e.slot).group).cls := by
  simp only [State.nightCallWaits, State.eligibleList, List.any_filter, List.any_eq_true, Bool.and_eq_true,
    eligible_iff, decide_eq_true_iff]
  rfl

/-! The bell that sounds in each mode (R178, R179). -/

theorem soundingBell_of_lapsed {s : State} (h : s.actual = .lapsed) : s.soundingBell = some .alarm := by
  simp [State.soundingBell, State.bellSource, h]

theorem soundingBell_of_day {s : State} (h : s.actual = .day) : s.soundingBell =
    if s.recallWaits then some .recall else if s.rings then some .ring else none := by
  simp [State.soundingBell, State.bellSource, h]

theorem soundingBell_of_night {s : State} (h : s.actual = .night) : s.soundingBell =
    if s.nightCallWaits then some .night else none := by
  simp [State.soundingBell, State.bellSource, h]

/-- The BELL output in RUN is the sounding bell at its phase. -/
theorem bellOutput_iff_sounding (s : State) : s.bellOutput = true ↔
    s.seq = .run ∧ s.settings.bellOn = true ∧ ∃ b, s.soundingBell = some b ∧ b.on s.cadence.val = true := by
  unfold State.bellOutput
  cases s.soundingBell <;> simp [and_assoc]

/-- Which bell sounds and when, mode by mode. -/
theorem sounding_on_iff (s : State) (psi : Nat) : (∃ b, s.soundingBell = some b ∧ b.on psi = true) ↔
    (s.actual = .lapsed ∧ psi % 2 = 0) ∨
      (s.actual = .day ∧ s.recallWaits = true ∧ (psi ≤ 4 ∨ (10 ≤ psi ∧ psi ≤ 14))) ∨
      (s.actual = .day ∧ ¬s.recallWaits = true ∧ s.rings = true ∧ psi ≤ 9) ∨
      (s.actual = .night ∧ s.nightCallWaits = true ∧ psi ≤ 19) := by
  cases hmode : s.actual with
  | lapsed => simp [soundingBell_of_lapsed hmode, Bell.on]
  | day =>
    rw [soundingBell_of_day hmode]
    cases s.recallWaits with
    | true => simp [Bell.on]
    | false => cases s.rings <;> simp [Bell.on]
  | night =>
    rw [soundingBell_of_night hmode]
    cases s.nightCallWaits <;> simp [Bell.on]

/-- Settles O60: the lamp images by the codes of the cadences, the bell by the mode and then by the order of R179. -/
theorem lampsAndOutputsFollowTheState : Obligations.LampsAndOutputsFollowTheState := by
  refine ⟨fun s n => ?_, fun s => ⟨attnAsserted_iff s, nightOutput_eq_false_iff s, ?_⟩⟩
  · intro code phi lit
    have hcode : (lampOf (s.slot n).disp).code.toNat = code := by
      simp only [code]
      cases (s.slot n).disp <;> rfl
    refine ⟨?_, ?_⟩
    · have hlane := congrArg (Option.map BitVec.toNat) (overlay_lampCadence s n)
      rwa [Option.map_map, Option.map_some, hcode] at hlane
    · have hlit : s.lampLit n = true ↔ lit := by
        rw [State.lampLit, lit_iff_code _ (Nat.mod_lt _ (by decide)), hcode]
      exact (overlay_lampLit s n).trans (congrArg some (Bool.eq_iff_iff.2 (hlit.trans decide_eq_true_iff.symm)))
  · rw [bellOutput_iff_sounding, sounding_on_iff, recallWaits_iff, rings_iff, nightCallWaits_iff]

end Sys2Proof.Machine
end

section
/-! PROOFS. The setting words (R140, R141, R200): what a clamp makes of a field, what a commit of one setting word
changes in the shadows, and the word the shadows make. -/

namespace Sys2Proof.Machine

open Sys2Proof.Safety

/-! The clamps as numbers (R141). -/

theorem toNat_clampHigh (hi v : BitVec 8) : (clampHigh hi v).toNat = min hi.toNat v.toNat := by
  unfold clampHigh
  split <;> rename_i h <;> rw [BitVec.lt_def] at h <;> omega

theorem toNat_clampZero {w : Nat} (hw : 0 < w) (v : BitVec w) : (clampZero v).toNat = max 1 v.toNat := by
  unfold clampZero
  split <;> rename_i h
  · have hone : (1 : BitVec w).toNat = 1 := BitVec.toNat_one hw
    have hzero : (0 : BitVec w).toNat = 0 := BitVec.toNat_zero
    rw [h, hone, hzero]
    rfl
  · have hv : v.toNat ≠ 0 := fun e => h (BitVec.eq_of_toNat_eq e)
    omega

theorem toNat_clampPresent (v : BitVec 8) : (clampPresent v).toNat = max 5 (min 60 v.toNat) := by
  have hhigh := toNat_clampHigh 60 v
  unfold clampPresent
  split <;> rename_i h <;> simp only [BitVec.lt_def, BitVec.reduceToNat] at h hhigh ⊢ <;> omega

theorem clampHigh_le (hi v : BitVec 8) : clampHigh hi v ≤ hi := by
  rw [BitVec.le_def, toNat_clampHigh]
  exact Nat.min_le_left _ _

theorem clampZero_ne_zero {w : Nat} (hw : 0 < w) (v : BitVec w) : clampZero v ≠ 0 := by
  intro h
  have hzero : (clampZero v).toNat = 0 := (congrArg BitVec.toNat h).trans BitVec.toNat_zero
  rw [toNat_clampZero hw] at hzero
  omega

theorem clampPresent_range (v : BitVec 8) : 5 ≤ clampPresent v ∧ clampPresent v ≤ 60 := by
  simp only [BitVec.le_def, toNat_clampPresent, BitVec.reduceToNat]
  omega

theorem serviceOfCode_eq (c : BitVec 2) : serviceOfCode c =
    if c.toNat = 1 then some .day else if c.toNat = 2 then some .night else none := by
  revert c
  decide

/-- The mode a MODE word is taken as (R141). -/
theorem mode_commit (t : Settings) (v : Word32) (requested : Service) : (t.commit .mode v requested).mode =
    if v.toNat % 4 = 1 then .day else if v.toNat % 4 = 2 then .night else requested := by
  have hcode : (v.extractLsb' 0 2).toNat = v.toNat % 4 := by rw [toNat_extract]; simp
  rw [Settings.commit, serviceOfCode_eq, hcode]
  split_ifs <;> rfl

/-! The groups of the shadows once one of them is written. -/

theorem groups_set_same (t : Settings) (g : GroupNo) (x : GroupSettings) : (t.groups.set g x)[g] = x := by simp

theorem groups_set_ne (t : Settings) {g h : GroupNo} (x : GroupSettings) (hne : h ≠ g) :
    (t.groups.set g x)[h] = t.groups[h] := by
  have hval : g.val ≠ h.val := fun e => hne (Fin.ext e.symm)
  simp [hval]

/-- A commit changes the fields of its own setting word alone (R140, R200). -/
theorem onlySettingChanged_commit (t : Settings) (w : SettingWord) (v : Word32) (requested : Service) :
    OnlySettingChanged w t (t.commit w v requested) := by
  cases w with
  | groupFirst g =>
    exact ⟨rfl, fun _ hne => groups_set_ne t _ hne, by simp only [Settings.commit, groups_set_same]; rfl⟩
  | groupSecond g =>
    exact ⟨rfl, fun _ hne => groups_set_ne t _ hne, by simp only [Settings.commit, groups_set_same]; rfl⟩
  | _ => rfl

/-! The word of each setting as the sum of its fields (R200). -/

theorem toNat_groupFirstWord (g : GroupSettings) : (groupFirstWord g).toNat =
    g.cls.toNat + 2 ^ 8 * g.grain.toNat + 2 ^ 16 * g.step.toNat + 2 ^ 24 * g.limit.toNat := by
  simp only [groupFirstWord, toNat_append_add, BitVec.toNat_ofNat]
  omega

theorem toNat_groupSecondWord (g : GroupSettings) : (groupSecondWord g).toNat =
    g.hold.toNat + 2 ^ 8 * g.transfer.toNat + 2 ^ 16 * g.camp.toNat := by
  simp only [groupSecondWord, toNat_append_add, BitVec.toNat_ofNat]
  omega

/-- A word whose one field stands in its low bits is that field. -/
theorem toNat_zero_append (n : Nat) {m : Nat} (x : BitVec m) : (0#n ++ x).toNat = x.toNat := by
  rw [toNat_append_add, BitVec.toNat_ofNat, Nat.zero_mod, Nat.zero_mul, Nat.zero_add]

theorem toNat_settingWord (t : Settings) (w : SettingWord) : (t.word w).toNat = settingValue t w := by
  cases w with
  | mode => exact (toNat_zero_append 30 _).trans (toNat_serviceCode t.mode)
  | supervision => exact toNat_zero_append 24 _
  | present => exact toNat_zero_append 24 _
  | missLimit => exact toNat_zero_append 29 _
  | wrapGuard => exact toNat_zero_append 24 _
  | nightBell => exact toNat_zero_append 29 _
  | bellEnable => exact (toNat_zero_append 31 _).trans ((BitVec.toNat_ofBool _).trans (toNat_boolField t.bellOn))
  | attnEnable => exact toNat_causesWord t.attnEnable
  | groupFirst g => exact toNat_groupFirstWord t.groups[g]
  | groupSecond g => exact toNat_groupSecondWord t.groups[g]

/-! A write of a setting word on the free bus (R140). -/

/-- A setting write by a requester with the right commits the merged word, and the Mode Unit acts on the MODE word
alone (R117, R140). -/
theorem writeEffect_setting (s : State) {r : Requester} (hr : actsForConsole r = true) {w : SettingWord}
    (hw : w ≠ .mode) (lanes : Lanes) (data : Word32) (lock : Bool) :
    let committed := s.settings.commit w (mergeLanes lanes data (s.settings.word w)) s.requested
    s.writeEffect (s.writeTxn r (settingOffset w) lanes data lock) (s.reach (settingOffset w)) =
      ⟨{ s with settings := committed }, .write (s.addr (settingOffset w)) fullLanes (committed.word w), none⟩ := by
  have hreach := reach_of_placeOf s (settingOffset w) (by simp)
  rw [placeOf_settingOffset] at hreach
  rw [hreach]
  simp only [State.writeEffect, mayWrite, requesterOf_writeTxn, hr, if_true, State.rightfulEffect, Place.isCommand,
    Bool.false_and, Bool.false_eq_true, if_false]
  cases w with
  | mode => exact absurd rfl hw
  | _ => rfl

/-- The shadows of `t` are those of the owners it is said to have. -/
theorem settings_of_ownersAre {t q : State} (h : OwnersAre t q) : t.settings = q.settings := by
  rw [h]

/-- Settles O50: the write through `arrive_done`, the words as sums of their fields, and the clamps field by field. -/
theorem settingWriteMergesClampsAndShadows : Obligations.SettingWriteMergesClampsAndShadows := by
  refine ⟨fun s r w lanes data lock hs hr hw => ?_, toNat_settingWord, onlySettingChanged_commit,
    fun t v requested g => ?_⟩
  · have hreach := reach_of_placeOf s (settingOffset w) (by simp)
    obtain ⟨howners, hrest⟩ := arrive_done hs r _ _ lanes _ data _ lock _ (by rw [hreach])
      (writeEffect_setting s hr hw lanes data lock) ⟨rfl, rfl, rfl, rfl, rfl, rfl⟩
    exact ⟨_, rfl, howners, by rwa [settings_of_ownersAre howners]⟩
  · refine ⟨?_, ?_, ?_, ?_, ?_, ?_, ?_, mode_commit t v requested, ?_, ?_⟩
    · simp [Settings.commit, toNat_clampHigh]
    · simp [Settings.commit, toNat_clampPresent]
    · simp [Settings.commit]
    · simp [Settings.commit, toNat_clampHigh]
    · simp [Settings.commit, toNat_clampZero]
    · simp [Settings.commit, BitVec.getLsbD, Nat.testBit_zero]
    · simp [Settings.commit]
    · rintro u rfl
      simp [Settings.commit, GroupSettings.withFirst, toNat_clampHigh, toNat_clampZero, Nat.shiftRight_eq_div_pow]
    · rintro u rfl
      simp [Settings.commit, GroupSettings.withSecond, Nat.shiftRight_eq_div_pow]

end Sys2Proof.Machine
end

section
/-! PROOFS. What each command does to the pins, the straps in force, the setting shadows and the sequencer's place: the
owners of call state and the Posting Queue leave them, a setting write commits one word, and a reset gives them its
values. -/

namespace Sys2Proof.Machine

open Sys2Proof.Safety

section
variable {s t q : State}

/-- The pins, the straps in force, the setting shadows and the sequencer's place. -/
def State.unitPart (s : State) := (s.pins, s.straps, s.settings, s.seq, s.stage)

theorem unitPart_eq_iff : t.unitPart = s.unitPart ↔
    t.pins = s.pins ∧ t.straps = s.straps ∧ t.settings = s.settings ∧ t.seq = s.seq ∧ t.stage = s.stage := by
  simp only [State.unitPart, Prod.mk.injEq]

theorem Kept.unitPart_eq (h : Kept s t) : t.unitPart = s.unitPart :=
  unitPart_eq_iff.2 ⟨h.pins, h.straps, h.settings, h.seq, h.stage⟩

/-! Posts, ticks and expiries. -/

theorem unitPart_posting (s before : State) : (s.posting before).unitPart = s.unitPart := by
  obtain ⟨posts, owed, h, -⟩ := givePosts_spec s (changedPosts before s) (changedPosts_nodup before s)
  rw [State.posting, h]
  rfl

theorem unitPart_postingExcept (s before : State) (off : Offset) :
    (s.postingExcept before off).unitPart = s.unitPart := by
  obtain ⟨posts, owed, h, -⟩ := givePosts_spec (s.dropPost off)
    ((changedPosts before s).filter fun g => decide (g.offset ≠ off))
    ((changedPosts_nodup before s).sublist (List.filter_sublist.map _))
  rw [State.postingExcept, h]
  rfl

/-- An event of the owners with its posts. -/
theorem Kept.unitPart_posting (h : Kept s q) : (q.posting s).unitPart = s.unitPart :=
  (Machine.unitPart_posting q s).trans h.unitPart_eq

theorem kept_missAt (s : State) (p : PosNo) : Kept s (s.missAt p) := by
  have hmissed := ((kept_withdraw s p).trans (kept_setPos _ p
    { (s.withdraw p).pos p with misses := satInc ((s.withdraw p).pos p).misses })).trans (kept_latch _ causeMiss)
  unfold State.missAt
  dsimp only
  split
  · exact (hmissed.trans (kept_becomeClosed _ p)).trans (kept_latch _ _)
  · exact hmissed.trans (kept_becomeReady _ p)

theorem unitPart_presentationExpires (s : State) (n : SlotNo) : (s.presentationExpires n).unitPart = s.unitPart := by
  unfold State.presentationExpires
  split
  · split
    · exact ((kept_missAt s _).trans (kept_arbitrate _)).unitPart_posting
    · rfl
  · rfl

theorem unitPart_offerExpires (s : State) (n : SlotNo) : (s.offerExpires n).unitPart = s.unitPart := by
  unfold State.offerExpires
  split
  · split
    · exact ((kept_withdraw s _).trans (kept_arbitrate _)).unitPart_posting
    · rfl
  · rfl

theorem unitPart_recallExpiry (s : State) (n : SlotNo) (d : Disp) : (s.recallExpiry n d).unitPart = s.unitPart := by
  unfold State.recallExpiry
  split
  · exact ((kept_recallSlot s n).trans (kept_arbitrate _)).unitPart_posting
  · rfl

theorem unitPart_wrapUpExpires (s : State) (p : PosNo) : (s.wrapUpExpires p).unitPart = s.unitPart := by
  unfold State.wrapUpExpires
  split
  · exact ((kept_becomeReady s p).trans (kept_arbitrate _)).unitPart_posting
  · rfl

theorem unitPart_supervisionExpires (s : State) : s.supervisionExpires.unitPart = s.unitPart := by
  unfold State.supervisionExpires
  split
  · exact (kept_lapse s).unitPart_posting
  · rfl

theorem unitPart_queueSecond (s : State) : s.queueSecond.unitPart = s.unitPart := by
  unfold State.queueSecond
  split
  · obtain ⟨slots, heq⟩ := ageListed_eq { s with secondAtQueue := false }
    rw [heq, unitPart_posting, (kept_arbitrate _).unitPart_eq]
    rfl
  · rfl

theorem unitPart_slotSecond (s : State) : s.slotSecond.unitPart = s.unitPart := by
  unfold State.slotSecond
  split <;> rfl

theorem unitPart_slotDue (s : State) (n : SlotNo) : (s.slotDue n).unitPart = s.unitPart := by
  unfold State.slotDue
  split
  · rw [unitPart_offerExpires, unitPart_presentationExpires]
  · exact unitPart_recallExpiry s n _
  · exact unitPart_recallExpiry s n _
  · exact unitPart_recallExpiry s n _
  · rfl

theorem unitPart_foldl {α : Type} {f : State → α → State} (hf : ∀ u a, (f u a).unitPart = u.unitPart) (l : List α)
    (s : State) : (l.foldl f s).unitPart = s.unitPart := by
  induction l generalizing s with
  | nil => rfl
  | cons a l ih => exact (ih (f s a)).trans (hf s a)

theorem unitPart_tick (s : State) : s.tick.unitPart = s.unitPart := rfl

theorem unitPart_callTick (s : State) : s.callTick.unitPart = s.unitPart := by
  rw [State.callTick, unitPart_tick, State.takeDue, unitPart_slotSecond, unitPart_queueSecond,
    unitPart_supervisionExpires, unitPart_foldl unitPart_wrapUpExpires, unitPart_foldl unitPart_slotDue]

theorem unitPart_clkref (s : State) : s.clkref.unitPart = s.unitPart := by
  unfold State.clkref
  split
  · rfl
  · exact unitPart_callTick s

theorem unitPart_issuePost (s : State) : s.issuePost.unitPart = s.unitPart := by
  unfold State.issuePost
  split
  · split <;> rfl
  · rfl

/-! The C-side bus. -/

/-- A property of the pins, the straps, the shadows and the sequencer's place that a commit of a setting word keeps and
every reset into a start-up phase gives (R140, R189). -/
structure UnitInvariant (P : State → Prop) : Prop where
  of_unitPart : ∀ s t : State, P s → t.unitPart = s.unitPart → P t
  commits : ∀ (s : State) (w : SettingWord) (v : Word32) (requested : Service), P s →
    P { s with settings := s.settings.commit w v requested }
  resets : ∀ (s : State) (cause : ResetCause) (phase : Seq), phase ≠ .run → P (s.resetBlocks cause phase)

variable {P : State → Prop}

theorem UnitInvariant.of_kept (hP : UnitInvariant P) (h : P s) (k : Kept s t) : P t :=
  hP.of_unitPart s t h k.unitPart_eq

theorem UnitInvariant.settingEffect (hP : UnitInvariant P) (h : P s) (txn : Txn) (r : Reached) (w : SettingWord) :
    P (s.settingEffect txn r w).state := by
  have hcommitted := hP.commits s w (mergeLanes txn.lanes txn.data (s.settings.word w)) s.requested h
  unfold State.settingEffect
  dsimp only
  split
  · exact hP.of_kept hcommitted (kept_takeMode _ _)
  · exact hcommitted

/-- Of the writes with the right, a setting write alone changes more than call state (R147). -/
theorem UnitInvariant.rightfulEffect (hP : UnitInvariant P) (h : P s) (txn : Txn) (r : Reached) :
    P (s.rightfulEffect txn r).state := by
  unfold State.rightfulEffect
  split
  · exact hP.of_kept h (kept_raiseFault s _)
  · split
    · exact hP.of_kept h (kept_acknowledge s _)
    · exact hP.of_kept h (kept_actionEvent s _ _ _)
    · unfold State.lineEffect
      dsimp only [State.commandEffect]
      split
      · exact hP.of_kept h (kept_lineEvent s _ _ _)
      · exact hP.of_kept h (kept_raiseFault s _)
    · exact hP.of_kept h (kept_controlEvent s _ _)
    · exact hP.of_kept h (kept_takeHeartbeat s)
    · unfold State.restartEffect
      split <;> exact h
    · exact hP.settingEffect h txn r _
    · exact hP.of_kept h (kept_setCounts s _ _)
    · exact hP.of_kept h (kept_setCounts s _ _)
    · unfold State.viewEffect
      split <;> exact h
    · exact h

theorem UnitInvariant.writeEffect (hP : UnitInvariant P) (h : P s) (txn : Txn) (r : Reached) :
    P (s.writeEffect txn r).state := by
  unfold State.writeEffect
  split
  · exact hP.rightfulEffect h txn r
  · unfold State.strayEffect
    dsimp only
    split <;> exact hP.of_kept h (kept_raiseFault s _)

theorem UnitInvariant.perform (hP : UnitInvariant P) (h : P s) (a : Access) : P (s.perform a) := by
  cases a with
  | restart addr data => exact hP.resets _ _ _ (by decide)
  | _ => exact hP.of_unitPart s _ h rfl

theorem UnitInvariant.complete (hP : UnitInvariant P) (h : P s) (txn : Txn) (b : List Post) (a : Access) :
    P (s.complete txn b a) := by
  unfold State.complete
  split
  · exact hP.perform h a
  · exact hP.of_unitPart s _ h rfl

theorem UnitInvariant.finishWrite {e : WriteEffect} (hP : UnitInvariant P) (h : P e.state) (before : State) (txn : Txn)
    (lock : Option Lock) : P (State.finishWrite before txn lock e) := by
  unfold State.finishWrite
  refine hP.complete ?_ _ _ _
  split
  · exact hP.of_unitPart e.state _ h (unitPart_postingExcept _ _ _)
  · exact hP.of_unitPart e.state _ h (unitPart_posting _ _)

theorem UnitInvariant.take (hP : UnitInvariant P) (h : P s) (txn : Txn) : P (s.take txn) := by
  unfold State.take
  split
  · exact hP.complete h _ _ _
  · split
    · unfold State.takeWindow
      dsimp only
      split
      · exact hP.finishWrite (hP.writeEffect h txn _) _ _ _
      · refine hP.complete ?_ _ _ _
        exact hP.of_unitPart s _ h rfl
    · exact hP.of_unitPart s _ h rfl

theorem UnitInvariant.arrive (hP : UnitInvariant P) (h : P s) (txn : Txn) : P (s.arrive txn) := by
  unfold State.arrive
  split
  · exact hP.of_unitPart s _ h rfl
  · exact hP.take h txn

theorem UnitInvariant.resumeBus (hP : UnitInvariant P) (h : P s) : P s.resumeBus := by
  have arrivals : ∀ (l : List Txn) (u : State), P u → P (l.foldl State.arrive u) := by
    intro l
    induction l with
    | nil => exact fun _ hu => hu
    | cons txn l ih => exact fun u hu => ih _ (hP.arrive hu txn)
  exact arrivals s.bus _ (hP.of_unitPart s _ h rfl)

theorem UnitInvariant.issueOwed (hP : UnitInvariant P) (h : P s) : P s.issueOwed := by
  unfold State.issueOwed
  split
  · exact h
  · dsimp only
    split
    · exact hP.of_unitPart s _ h rfl
    · split
      · refine hP.resumeBus (hP.perform ?_ _)
        exact hP.of_unitPart s _ h rfl
      · exact hP.of_unitPart s _ h rfl

theorem UnitInvariant.resetFromPin (hP : UnitInvariant P) (s : State) (cause : ResetCause) {phase : Seq}
    (hp : phase ≠ .run) : P (s.resetFromPin cause phase) := hP.resumeBus (hP.resets _ _ _ hp)

/-! The Start-Up Sequencer: it changes no strap, and of the shadows what one sweep read commits (R192). -/

/-- `t` has the shadows and the straps in force of `s`. -/
def SameUnits (s t : State) : Prop := t.settings = s.settings ∧ t.straps = s.straps

theorem sameUnits_of_unitPart (h : t.unitPart = s.unitPart) : SameUnits s t := by
  obtain ⟨-, hstraps, hsettings, -, -⟩ := unitPart_eq_iff.1 h
  exact ⟨hsettings, hstraps⟩

theorem sameUnits_openingStep (s : State) : SameUnits s s.openingStep := by
  unfold State.openingStep
  split <;> exact ⟨rfl, rfl⟩

theorem sameUnits_fillStep (s : State) : SameUnits s s.fillStep := by
  unfold State.fillStep
  split <;> exact ⟨rfl, rfl⟩

theorem sameUnits_adoptStep (s : State) : SameUnits s s.adoptStep := by
  cases hst : s.stage with
  | adopting n =>
    obtain ⟨la, fa, ov, m, u, heq⟩ := adoptStep_eq hst
    rw [heq]
    exact ⟨rfl, rfl⟩
  | _ => rw [State.adoptStep, hst]; exact ⟨rfl, rfl⟩

theorem sameUnits_closingStep (s : State) : SameUnits s s.closingStep := by
  by_cases hst : s.stage = .closing
  · obtain ⟨m, heq⟩ := closingStep_eq hst
    rw [heq]
    exact ⟨rfl, rfl⟩
  · rw [State.closingStep, if_neg hst]
    exact ⟨rfl, rfl⟩

theorem sameUnits_enterRun (s : State) : SameUnits s s.enterRun := by
  rw [enterRun_eq]
  split
  · have harbitrated := (kept_armSupervision s.entered).trans (kept_arbitrate _)
    exact ⟨harbitrated.settings, harbitrated.straps⟩
  · have harbitrated := kept_arbitrate s.entered
    exact ⟨harbitrated.settings, harbitrated.straps⟩

/-- A sweep read is a commit of the word found, and else a change of stage, requested mode and memory. -/
theorem sweepSettingStep_eq {k : Fin 72} (hst : s.stage = .settings k) : ∃ m mode next v,
    s.sweepSettingStep = { s with
      settings := s.settings.commit (sweepSetting k) v s.requested, mem := m, requested := mode, stage := next } := by
  unfold State.sweepSettingStep
  rw [hst]
  dsimp only
  split <;> exact ⟨_, _, _, _, rfl⟩

theorem UnitInvariant.sweepSettingStep (hP : UnitInvariant P) (hs : ∀ u, SameUnits s u → P u) :
    P s.sweepSettingStep := by
  cases hst : s.stage with
  | settings k =>
    obtain ⟨m, mode, next, v, heq⟩ := sweepSettingStep_eq hst
    have hcommitted := hP.commits { s with stage := next } (sweepSetting k) v s.requested (hs _ ⟨rfl, rfl⟩)
    rw [heq]
    exact hP.of_unitPart _ _ hcommitted rfl
  | _ => rw [State.sweepSettingStep, hst]; exact hs s ⟨rfl, rfl⟩

theorem UnitInvariant.entryStep (hP : UnitInvariant P) (hs : ∀ u, SameUnits s u → P u) : P s.entryStep := by
  unfold State.entryStep
  split
  · exact hP.resumeBus (hs _ (sameUnits_enterRun s))
  · exact hs s ⟨rfl, rfl⟩

/-! The commands. -/

/-- What holds of every state with the shadows and straps of `s` holds after any command. -/
theorem UnitInvariant.exec (hP : UnitInvariant P) (hs : ∀ u, SameUnits s u → P u) (c : Instr)
    (he : exec c s = .next t) : P t := by
  have hpart : ∀ u, u.unitPart = s.unitPart → P u := fun u hu => hs u (sameUnits_of_unitPart hu)
  cases hb : busTxn s c with
  | some txn =>
    rw [exec_bus s c hb] at he
    rw [← Host.Outcome.next.inj he]
    have hpins : P { s with pins := busPins s c } := hs _ ⟨rfl, rfl⟩
    exact hP.arrive hpins txn
  | none =>
    cases c <;> simp only [busTxn, reduceCtorEq] at hb <;> rw [← Host.Outcome.next.inj he]
    case powerOnReset => exact hP.resetFromPin _ _ (by decide)
    case resetN => exact hP.resetFromPin _ _ (by decide)
    case openingWrite => exact hs _ (sameUnits_openingStep s)
    case fill => exact hs _ (sameUnits_fillStep s)
    case sweepSettingRead => exact hP.sweepSettingStep hs
    case adoption => exact hs _ (sameUnits_adoptStep s)
    case closingWrites => exact hs _ (sameUnits_closingStep s)
    case entryToRun => exact hP.entryStep hs
    case callTick => exact hpart _ (unitPart_callTick s)
    case secondTick => exact hpart _ (unitPart_queueSecond s)
    case slotSecondTick => exact hpart _ (unitPart_slotSecond s)
    case presentationExpiry n => exact hpart _ (unitPart_presentationExpires s n)
    case breakInOfferExpiry n => exact hpart _ (unitPart_offerExpires s n)
    case holdRecallExpiry n => exact hpart _ (unitPart_recallExpiry s n .held)
    case transferRecallExpiry n => exact hpart _ (unitPart_recallExpiry s n .extended)
    case campRecallExpiry n => exact hpart _ (unitPart_recallExpiry s n .camped)
    case wrapUpExpiry p => exact hpart _ (unitPart_wrapUpExpires s p)
    case supervisionExpiry => exact hpart _ (unitPart_supervisionExpires s)
    case post => exact hpart _ (unitPart_issuePost s)
    case owedIssue => exact hP.issueOwed (hs s ⟨rfl, rfl⟩)

end

/-! Settings in range (R141). -/

theorem settingsInRange_default : SettingsInRange Settings.default :=
  ⟨by decide, by decide, by decide, by decide, by decide, fun g => by simp [Settings.default, GroupSettings.default]⟩

/-- The fields of a route group with a range to keep, within it. -/
def GroupInRange (x : GroupSettings) : Prop := x.grain ≤ 63 ∧ x.step ≠ 0 ∧ x.limit ≠ 0

/-- A group written within range leaves every group within range. -/
theorem groupInRange_set {t : Settings} {g : GroupNo} {x : GroupSettings} (h : ∀ k : GroupNo, GroupInRange t.groups[k])
    (hx : GroupInRange x) (k : GroupNo) : GroupInRange (t.groups.set g x)[k] := by
  by_cases hk : k = g
  · rw [hk, groups_set_same]
    exact hx
  · rw [groups_set_ne t x hk]
    exact h k

/-- A commit clamps the fields of its word into their ranges (R141). -/
theorem settingsInRange_commit {t : Settings} (h : SettingsInRange t) (w : SettingWord) (v : Word32)
    (requested : Service) : SettingsInRange (t.commit w v requested) := by
  obtain ⟨hsupervision, hlow, hhigh, hguard, hbell, hgroups⟩ := h
  cases w with
  | supervision => exact ⟨clampHigh_le 4 _, hlow, hhigh, hguard, hbell, hgroups⟩
  | present =>
    obtain ⟨hlow', hhigh'⟩ := clampPresent_range (v.extractLsb' 0 8)
    exact ⟨hsupervision, hlow', hhigh', hguard, hbell, hgroups⟩
  | wrapGuard => exact ⟨hsupervision, hlow, hhigh, clampHigh_le 15 _, hbell, hgroups⟩
  | nightBell => exact ⟨hsupervision, hlow, hhigh, hguard, clampZero_ne_zero (by decide) _, hgroups⟩
  | groupFirst g =>
    exact ⟨hsupervision, hlow, hhigh, hguard, hbell, groupInRange_set hgroups
      ⟨clampHigh_le 63 _, clampZero_ne_zero (by decide) _, clampZero_ne_zero (by decide) _⟩⟩
  | groupSecond g => exact ⟨hsupervision, hlow, hhigh, hguard, hbell, groupInRange_set hgroups (hgroups g)⟩
  | _ => exact ⟨hsupervision, hlow, hhigh, hguard, hbell, hgroups⟩

theorem unitInvariant_settingsInRange : UnitInvariant fun s => SettingsInRange s.settings where
  of_unitPart s t h e := by
    obtain ⟨-, -, hsettings, -, -⟩ := unitPart_eq_iff.1 e
    rwa [hsettings]
  commits _ w v requested h := settingsInRange_commit h w v requested
  resets _ _ _ _ := settingsInRange_default

/-- Settles O4: commits clamp, resets give the defaults, and nothing else moves a shadow. -/
theorem stepKeepsSettingsInRange : Obligations.StepKeepsSettingsInRange := by
  intro s t h hstep
  unfold step at hstep
  split at hstep
  · rw [← Host.Outcome.next.inj hstep]
    exact unitInvariant_settingsInRange.of_unitPart s _ h (unitPart_clkref s)
  · rename_i c rest _
    exact unitInvariant_settingsInRange.exec (s := { s with pending := rest })
      (fun _ ⟨hsettings, _⟩ => by rw [hsettings]; exact h) c hstep

/-! The straps in force (R148). -/

/-- The part is at the first access of a start-up phase, with the straps it has sampled from its pins (R148, R189). -/
def JustReset (s : State) : Prop := s.straps = s.pins ∧ s.seq ≠ .run ∧ s.stage = .opening

theorem unitInvariant_strapsOrReset (straps : Straps) : UnitInvariant fun s => s.straps = straps ∨ JustReset s where
  of_unitPart s t h e := by
    obtain ⟨hpins, hstraps, -, hseq, hstage⟩ := unitPart_eq_iff.1 e
    simpa only [JustReset, hpins, hstraps, hseq, hstage] using h
  commits _ _ _ _ h := h
  resets _ _ _ hphase := .inr ⟨rfl, hphase, rfl⟩

/-- Settles O12: after any command the straps in force are those before it, or the part has just been reset. -/
theorem onlyResetsChangeTheStraps : Obligations.OnlyResetsChangeTheStraps := by
  intro c s t he hchanged
  have hend := (unitInvariant_strapsOrReset s.straps).exec (fun _ ⟨_, hstraps⟩ => .inl hstraps) c he
  exact hend.resolve_left hchanged

end Sys2Proof.Machine
end

section
/-! PROOFS. RESTART (R139): its write, and the reset that follows the write. -/

namespace Sys2Proof.Machine

open Sys2Proof.Safety

section
variable {s : State} {r : Requester}

/-- The full-word write of the RESTART value (R139). -/
def State.restartTxn (s : State) (r : Requester) (lock : Bool) : Txn :=
  s.writeTxn r 0x009 fullLanes Config.restartValue lock

theorem reach_restart (s : State) : s.reach 0x009 = ⟨0x009, .restart, none⟩ := rfl

/-- A RESTART by a requester with the right changes no owner: its access is the write that a reset follows (R139). -/
theorem writeEffect_restart (s : State) (hr : actsForConsole r = true) (lock : Bool) :
    s.writeEffect (s.restartTxn r lock) ⟨0x009, .restart, none⟩ =
      ⟨s, .restart (s.addr 0x009) Config.restartValue, none⟩ := by
  simp only [State.writeEffect, mayWrite, State.restartTxn, requesterOf_writeTxn, hr, if_true]
  rfl

/-- A RESTART on the free bus comes at once to its own access, with the lock state it leaves (R147, R168). -/
theorem arrive_restart (hs : Serving s) (hr : actsForConsole r = true) (lock : Bool) :
    s.arrive (s.restartTxn r lock) = { s with lock := lockAfter s.lock (s.restartTxn r lock) 0x009 }.complete
      (s.restartTxn r lock) s.owed (.restart (s.addr 0x009) Config.restartValue) := by
  rw [arrive_serving hs _ 0x009 rfl, takeWindow_write s _ 0x009 rfl, reach_restart, writeEffect_restart s hr lock,
    finishWrite_self]

/-- With nothing owed, the write is made and the blocks are reset. -/
theorem arrive_restart_made (hs : Serving s) (hr : actsForConsole r = true) (lock : Bool) (ho : s.owed = []) :
    s.arrive (s.restartTxn r lock) = { State.reset with
      pins := s.pins, straps := s.pins, resetCause := .restart, seq := .sweep, pending := s.pending
      mem := s.mem.writeWord (s.addr 0x009) fullLanes Config.restartValue } := by
  rw [arrive_restart hs hr]
  obtain ⟨-, -, hbus, -⟩ := hs
  simp only [State.complete, ho, List.isEmpty_nil, Bool.true_or, if_true, State.perform, State.resetBlocks, hbus]
  rfl

/-- While issues are owed, the write and the reset behind it wait. -/
theorem arrive_restart_held (hs : Serving s) (hr : actsForConsole r = true) (lock : Bool) (ho : s.owed ≠ []) :
    s.arrive (s.restartTxn r lock) = { s with
      lock := lockAfter s.lock (s.restartTxn r lock) 0x009
      held := some ⟨s.restartTxn r lock, .restart (s.addr 0x009) Config.restartValue, s.owed.length⟩ } := by
  rw [arrive_restart hs hr]
  simp [State.complete, ho]

end

/-- Settles O14: the write is made and the blocks are reset, or both are held for the issues owed. -/
theorem restartResetsOnceItsWriteIsMade : Obligations.RestartResetsOnceItsWriteIsMade := by
  intro r lock pins s hs hr
  have hsampled : Serving { s with pins := pins } := hs
  obtain ⟨-, -, -, hwf⟩ := hs
  refine ⟨State.arrive { s with pins := pins } (State.restartTxn { s with pins := pins } r lock), rfl, fun ho => ?_,
    arrive_restart_held hsampled hr lock⟩
  have hword := Memory.readWord_writeWord_same (s.addr 0x009) fullLanes Config.restartValue hwf
  rw [mergeLanes_full] at hword
  rw [arrive_restart_made hsampled hr lock ho]
  exact ⟨rfl, hword, fun _ => Memory.read_writeWord_ne s.mem (s.addr 0x009) fullLanes Config.restartValue⟩

end Sys2Proof.Machine
end

section
/-! PROOFS. The Posting Queue through every command: what a tick, an expiry or a window write does to the S-side, and
that the queue stays within its 16 entries, one for a word. -/

namespace Sys2Proof.Machine

open Sys2Proof.Safety

section
variable {s t q : State}

/-- The S-side of the part and the sequencer's place. -/
def State.storePart (s : State) := (s.straps, s.held, s.posts, s.owed, s.mem, s.seq, s.stage)

theorem storePart_eq_iff : t.storePart = s.storePart ↔ t.straps = s.straps ∧ t.held = s.held ∧ t.posts = s.posts ∧
    t.owed = s.owed ∧ t.mem = s.mem ∧ t.seq = s.seq ∧ t.stage = s.stage := by
  simp only [State.storePart, Prod.mk.injEq]

theorem Kept.storePart_eq (h : Kept s t) : t.storePart = s.storePart :=
  storePart_eq_iff.2 ⟨h.straps, h.held, h.posts, h.owed, h.mem, h.seq, h.stage⟩

/-- What the owners put into posted words, but for the slot records. -/
def State.postedPart (s : State) := (s.positions, s.readyList, s.actual, s.requested, s.nightPending, s.resetCause,
  s.seq, s.latched, s.fault, s.overflow)

theorem postedPart_eq_iff : t.postedPart = s.postedPart ↔ t.positions = s.positions ∧ t.readyList = s.readyList ∧
    t.actual = s.actual ∧ t.requested = s.requested ∧ t.nightPending = s.nightPending ∧ t.resetCause = s.resetCause ∧
    t.seq = s.seq ∧ t.latched = s.latched ∧ t.fault = s.fault ∧ t.overflow = s.overflow := by
  simp only [State.postedPart, Prod.mk.injEq]

/-- A posted word reads the same where its owner holds the same (R97, R128, R151, R155). -/
theorem postedValue_congr {off : Offset} (hoff : off ∈ postedOffsets) (hpart : t.postedPart = s.postedPart)
    (hslot : ∀ n, dispositionWord (t.slot n) = dispositionWord (s.slot n)) : t.postedValue off = s.postedValue off := by
  obtain ⟨hpositions, hready, hactual, hrequested, hnight, hcause, hseq, hlatched, hfault, hoverflow⟩ :=
    postedPart_eq_iff.1 hpart
  have hposted := mem_postedOffsets.1 hoff
  unfold State.postedValue State.overlay
  cases hplace : placeOf off <;> simp only [hplace, Place.isPosted, Bool.false_eq_true] at hposted
  case disposition n => exact hslot n
  case status p =>
    simp only [State.pos, State.currentSlot, State.readyPlace, hpositions, hready]
  all_goals simp only [hactual, hrequested, hnight, hcause, hseq, hlatched, hfault, hoverflow]

/-! Ticks and expiries. -/

/-- Events inside the part lead from `s` to `t`: each is a change of the owners with its posts (R163), or a change that
no posted word shows. -/
inductive EventsLead : State → State → Prop
  | quiet {s t : State} (hstore : t.storePart = s.storePart)
      (hvalue : ∀ off ∈ postedOffsets, t.postedValue off = s.postedValue off) : EventsLead s t
  | posting {s q : State} (hstore : q.storePart = s.storePart) : EventsLead s (q.posting s)
  | trans {s u t : State} (first : EventsLead s u) (second : EventsLead u t) : EventsLead s t

theorem EventsLead.refl (s : State) : EventsLead s s := .quiet rfl fun _ _ => rfl

/-- An event of the owners of call state with its posts. -/
theorem Kept.eventsLead (h : Kept s q) : EventsLead s (q.posting s) := .posting h.storePart_eq

theorem eventsLead_presentationExpires (s : State) (n : SlotNo) : EventsLead s (s.presentationExpires n) := by
  unfold State.presentationExpires
  split
  · split
    · exact ((kept_missAt s _).trans (kept_arbitrate _)).eventsLead
    · exact .refl s
  · exact .refl s

theorem eventsLead_offerExpires (s : State) (n : SlotNo) : EventsLead s (s.offerExpires n) := by
  unfold State.offerExpires
  split
  · split
    · exact ((kept_withdraw s _).trans (kept_arbitrate _)).eventsLead
    · exact .refl s
  · exact .refl s

theorem eventsLead_recallExpiry (s : State) (n : SlotNo) (d : Disp) : EventsLead s (s.recallExpiry n d) := by
  unfold State.recallExpiry
  split
  · exact ((kept_recallSlot s n).trans (kept_arbitrate _)).eventsLead
  · exact .refl s

theorem eventsLead_wrapUpExpires (s : State) (p : PosNo) : EventsLead s (s.wrapUpExpires p) := by
  unfold State.wrapUpExpires
  split
  · exact ((kept_becomeReady s p).trans (kept_arbitrate _)).eventsLead
  · exact .refl s

theorem eventsLead_supervisionExpires (s : State) : EventsLead s s.supervisionExpires := by
  unfold State.supervisionExpires
  split
  · exact (kept_lapse s).eventsLead
  · exact .refl s

theorem eventsLead_queueSecond (s : State) : EventsLead s s.queueSecond := by
  unfold State.queueSecond
  split
  · obtain ⟨slots, heq⟩ := ageListed_eq { s with secondAtQueue := false }
    refine .posting ((kept_arbitrate _).storePart_eq.trans ?_)
    rw [heq]
    rfl
  · exact .refl s

theorem dispositionWord_aged (sl : Slot) : dispositionWord sl.aged = dispositionWord sl := by
  unfold Slot.aged
  split <;> rfl

/-- The second tick at the Slot Controller steps elapsed counts, which no posted word shows (R10, R151). -/
theorem eventsLead_slotSecond (s : State) : EventsLead s s.slotSecond := by
  unfold State.slotSecond
  split
  · refine .quiet rfl fun off hoff => postedValue_congr hoff rfl fun n => ?_
    have hslot : (mapVec Slot.aged s.slots)[n] = (s.slot n).aged := mapVec_get ..
    exact (congrArg dispositionWord hslot).trans (dispositionWord_aged _)
  · exact .refl s

theorem eventsLead_slotDue (s : State) (n : SlotNo) : EventsLead s (s.slotDue n) := by
  unfold State.slotDue
  split
  · exact (eventsLead_presentationExpires s n).trans (eventsLead_offerExpires _ n)
  · exact eventsLead_recallExpiry s n _
  · exact eventsLead_recallExpiry s n _
  · exact eventsLead_recallExpiry s n _
  · exact .refl s

theorem eventsLead_foldl {α : Type} {f : State → α → State} (hf : ∀ u a, EventsLead u (f u a)) (l : List α)
    (s : State) : EventsLead s (l.foldl f s) := by
  induction l generalizing s with
  | nil => exact .refl s
  | cons a l ih => exact (hf s a).trans (ih _)

theorem eventsLead_takeDue (s : State) : EventsLead s s.takeDue := by
  have hslots := eventsLead_foldl eventsLead_slotDue allSlots s
  have hpositions := eventsLead_foldl eventsLead_wrapUpExpires allPositions (allSlots.foldl State.slotDue s)
  exact (((hslots.trans hpositions).trans (eventsLead_supervisionExpires _)).trans (eventsLead_queueSecond _)).trans
    (eventsLead_slotSecond _)

/-- The tick's own change is one of counts, which no posted word shows (R101). -/
theorem eventsLead_tick (s : State) : EventsLead s s.tick :=
  .quiet rfl fun _ hoff => postedValue_congr hoff rfl fun _ => rfl

theorem eventsLead_callTick (s : State) : EventsLead s s.callTick :=
  (eventsLead_takeDue s).trans (eventsLead_tick _)

theorem eventsLead_clkref (s : State) : EventsLead s s.clkref := by
  unfold State.clkref
  split
  · exact .quiet rfl fun _ hoff => postedValue_congr hoff rfl fun _ => rfl
  · exact eventsLead_callTick s

/-! The bounds of the queue (R164, R167). -/

/-- `PostingBounded`, its parts named. -/
structure QueueFits (s : State) : Prop where
  length : s.posts.length ≤ Config.postingDepth
  nodup : (s.posts.map Post.offset).Nodup
  posted : ∀ e ∈ s.posts, (placeOf e.offset).isPosted = true

theorem queueFits_iff : QueueFits s ↔ PostingBounded s :=
  ⟨fun ⟨hlength, hnodup, hposted⟩ => ⟨hlength, hnodup, hposted⟩,
    fun ⟨hlength, hnodup, hposted⟩ => ⟨hlength, hnodup, hposted⟩⟩

/-- Entries that leave the queue leave its bounds kept. -/
theorem QueueFits.of_sublist (h : QueueFits s) (hsub : t.posts.Sublist s.posts) : QueueFits t where
  length := hsub.length_le.trans h.length
  nodup := h.nodup.sublist (hsub.map _)
  posted e he := h.posted e (hsub.subset he)

theorem QueueFits.of_posts (h : QueueFits s) (hposts : t.posts = s.posts) : QueueFits t :=
  h.of_sublist (hposts ▸ List.Sublist.refl _)

theorem queueFits_of_empty (hposts : s.posts = []) : QueueFits s := by
  constructor <;> simp [hposts]

theorem changedPosts_posted (before after : State) :
    ∀ e ∈ changedPosts before after, (placeOf e.offset).isPosted = true := by
  intro e he
  obtain ⟨⟨hoff, -⟩, -⟩ := mem_changedPosts.1 he
  exact mem_postedOffsets.1 hoff

/-- Posted words given once each leave at most 16 entries, one for a word: at a full queue the oldest goes (R164). -/
theorem QueueFits.givePosts {given : List Post} (h : QueueFits s) (hnodup : (given.map Post.offset).Nodup)
    (hposted : ∀ g ∈ given, (placeOf g.offset).isPosted = true) : QueueFits (s.givePosts given) := by
  obtain ⟨posts, owed, heq, -, -, hfrom, hbounds⟩ := givePosts_spec s given hnodup
  obtain ⟨hlength, hoffsets⟩ := hbounds (queueFits_iff.1 h) hposted
  rw [List.map_append, List.nodup_append] at hoffsets
  rw [heq]
  refine ⟨hlength, hoffsets.1, fun e he => ?_⟩
  rcases hfrom e (List.mem_append_left _ he) with hgiven | ⟨hqueued, -⟩
  · exact hposted e hgiven
  · exact h.posted e hqueued

theorem QueueFits.posting (h : QueueFits s) (before : State) : QueueFits (s.posting before) :=
  h.givePosts (changedPosts_nodup before s) (changedPosts_posted before s)

/-- The words given when the event's own write carries the one at `off` (R170). -/
def keptPosts (before after : State) (off : Offset) : List Post :=
  (changedPosts before after).filter fun g => decide (g.offset ≠ off)

theorem keptPosts_nodup (before after : State) (off : Offset) : ((keptPosts before after off).map Post.offset).Nodup :=
  (changedPosts_nodup before after).sublist (List.filter_sublist.map _)

theorem keptPosts_posted (before after : State) (off : Offset) :
    ∀ e ∈ keptPosts before after off, (placeOf e.offset).isPosted = true :=
  fun e he => changedPosts_posted before after e (List.mem_filter.1 he).1

theorem QueueFits.dropPost (h : QueueFits s) (off : Offset) : QueueFits (s.dropPost off) :=
  h.of_sublist List.filter_sublist

theorem QueueFits.postingExcept (h : QueueFits s) (before : State) (off : Offset) :
    QueueFits (s.postingExcept before off) :=
  (h.dropPost off).givePosts (keptPosts_nodup before s off) (keptPosts_posted before s off)

theorem QueueFits.eventsLead (h : QueueFits s) (e : EventsLead s t) : QueueFits t := by
  induction e with
  | quiet hstore _ => exact h.of_posts (storePart_eq_iff.1 hstore).2.2.1
  | posting hstore => exact (h.of_posts (storePart_eq_iff.1 hstore).2.2.1).posting _
  | trans _ _ ih ih' => exact ih' (ih h)

/-! Window writes (R147). -/

theorem storePart_settingEffect (s : State) (txn : Txn) (r : Reached) (w : SettingWord) :
    (s.settingEffect txn r w).state.storePart = s.storePart := by
  unfold State.settingEffect
  dsimp only
  split
  · exact (kept_takeMode _ _).storePart_eq
  · rfl

theorem storePart_rightfulEffect (s : State) (txn : Txn) (r : Reached) :
    (s.rightfulEffect txn r).state.storePart = s.storePart := by
  unfold State.rightfulEffect
  split
  · exact (kept_raiseFault s _).storePart_eq
  · split
    · exact (kept_acknowledge s _).storePart_eq
    · exact (kept_actionEvent s _ _ _).storePart_eq
    · unfold State.lineEffect
      dsimp only [State.commandEffect]
      split
      · exact (kept_lineEvent s _ _ _).storePart_eq
      · exact (kept_raiseFault s _).storePart_eq
    · exact (kept_controlEvent s _ _).storePart_eq
    · exact (kept_takeHeartbeat s).storePart_eq
    · unfold State.restartEffect
      split <;> rfl
    · exact storePart_settingEffect s txn r _
    · rfl
    · rfl
    · unfold State.viewEffect
      split <;> rfl
    · rfl

/-- The owners' part in a window write leaves the S-side and the sequencer's place. -/
theorem storePart_writeEffect (s : State) (txn : Txn) (r : Reached) :
    (s.writeEffect txn r).state.storePart = s.storePart := by
  unfold State.writeEffect
  split
  · exact storePart_rightfulEffect s txn r
  · unfold State.strayEffect
    dsimp only
    split <;> exact (kept_raiseFault s _).storePart_eq

/-! The C-side bus. -/

/-- A property that the taking of a transaction on the free bus keeps (R147), and that does not look at those which
wait. -/
structure BusInvariant (P : State → Prop) : Prop where
  of_bus : ∀ (s : State) (bus : List Txn), P s → P { s with bus := bus }
  outside : ∀ (s : State) (txn : Txn), P s → s.held = none → windowOffset s.straps.wbase txn.addr = none →
    P (s.complete txn s.owed (outsideAccess txn))
  window : ∀ (s : State) (txn : Txn) (off : Offset), P s → s.held = none → s.seq = .run → P (s.takeWindow txn off)

section
variable {P : State → Prop}

theorem BusInvariant.arrive (hP : BusInvariant P) (h : P s) (txn : Txn) : P (s.arrive txn) := by
  unfold State.arrive
  split
  · exact hP.of_bus s _ h
  · rename_i hfree
    have hheld : s.held = none := by
      simp only [State.busBusy, Bool.or_eq_true, not_or, Option.isSome_iff_ne_none, not_not] at hfree
      exact hfree.1
    unfold State.take
    split
    · rename_i hoff
      exact hP.outside s txn h hheld hoff
    · split
      · rename_i off _ hrun
        exact hP.window s txn off h hheld hrun
      · exact hP.of_bus s _ h

theorem BusInvariant.resumeBus (hP : BusInvariant P) (h : P s) : P s.resumeBus := by
  have arrivals : ∀ (l : List Txn) (u : State), P u → P (l.foldl State.arrive u) := by
    intro l
    induction l with
    | nil => exact fun _ hu => hu
    | cons txn l ih => exact fun u hu => ih _ (hP.arrive hu txn)
  exact arrivals s.bus _ (hP.of_bus s _ h)

end

/-- A transaction's own access leaves the queue, or a reset empties it (R172). -/
theorem QueueFits.perform (h : QueueFits s) (a : Access) : QueueFits (s.perform a) := by
  cases a with
  | restart addr data => exact queueFits_of_empty rfl
  | _ => exact h.of_posts rfl

theorem QueueFits.complete (h : QueueFits s) (txn : Txn) (owed : List Post) (a : Access) :
    QueueFits (s.complete txn owed a) := by
  unfold State.complete
  split
  · exact h.perform a
  · exact h.of_posts rfl

theorem QueueFits.takeWindow (h : QueueFits s) (txn : Txn) (off : Offset) :
    QueueFits (s.takeWindow txn off) := by
  unfold State.takeWindow
  dsimp only
  split
  · unfold State.finishWrite
    refine QueueFits.complete ?_ _ _ _
    have howners : QueueFits { (s.writeEffect txn (s.reach off)).state with
        lock := lockAfter s.lock txn (s.reach off).offset } :=
      h.of_posts (storePart_eq_iff.1 (storePart_writeEffect s txn _)).2.2.1
    split
    · exact howners.postingExcept s _
    · exact howners.posting s
  · refine QueueFits.complete ?_ _ _ _
    exact h.of_posts rfl

theorem busInvariant_queueFits : BusInvariant QueueFits where
  of_bus _ _ h := h.of_posts rfl
  outside _ txn h _ _ := h.complete txn _ _
  window _ txn off h _ _ := h.takeWindow txn off

theorem queueFits_resetFromPin (s : State) (cause : ResetCause) (phase : Seq) :
    QueueFits (s.resetFromPin cause phase) :=
  busInvariant_queueFits.resumeBus (queueFits_of_empty rfl)

/-- A post takes its entry out of the queue (R165). -/
theorem QueueFits.issuePost (h : QueueFits s) : QueueFits s.issuePost := by
  unfold State.issuePost
  split
  · split
    · rename_i e rest htake
      obtain ⟨before, after, hposts, rfl, -⟩ := takeOldest_some htake
      refine h.of_sublist ?_
      rw [hposts]
      exact (List.sublist_cons_self e after).append_left before
    · exact h
  · exact h

theorem QueueFits.issueOwed (h : QueueFits s) : QueueFits s.issueOwed := by
  unfold State.issueOwed
  split
  · exact h
  · dsimp only
    split
    · exact h.of_posts rfl
    · split
      · refine busInvariant_queueFits.resumeBus (QueueFits.perform ?_ _)
        exact h.of_posts rfl
      · exact h.of_posts rfl

/-! The Start-Up Sequencer posts nothing (R195). -/

theorem posts_openingStep (s : State) : s.openingStep.posts = s.posts := by
  unfold State.openingStep
  split <;> rfl

theorem posts_fillStep (s : State) : s.fillStep.posts = s.posts := by
  unfold State.fillStep
  split <;> rfl

theorem posts_sweepSettingStep (s : State) : s.sweepSettingStep.posts = s.posts := by
  cases hst : s.stage with
  | settings k =>
    obtain ⟨m, mode, next, v, heq⟩ := sweepSettingStep_eq hst
    rw [heq]
  | _ => rw [State.sweepSettingStep, hst]

theorem posts_adoptStep (s : State) : s.adoptStep.posts = s.posts := by
  cases hst : s.stage with
  | adopting n =>
    obtain ⟨la, fa, ov, m, u, heq⟩ := adoptStep_eq hst
    rw [heq]
    rfl
  | _ => rw [State.adoptStep, hst]

theorem posts_closingStep (s : State) : s.closingStep.posts = s.posts := by
  by_cases hst : s.stage = .closing
  · obtain ⟨m, heq⟩ := closingStep_eq hst
    rw [heq]
  · rw [State.closingStep, if_neg hst]

theorem posts_enterRun (s : State) : s.enterRun.posts = s.posts := by
  rw [enterRun_eq, (kept_arbitrate _).posts]
  split <;> rfl

theorem QueueFits.entryStep (h : QueueFits s) : QueueFits s.entryStep := by
  unfold State.entryStep
  split
  · exact busInvariant_queueFits.resumeBus (h.of_posts (posts_enterRun s))
  · exact h

/-! The commands. -/

theorem QueueFits.exec (h : QueueFits s) (c : Instr) (he : exec c s = .next t) : QueueFits t := by
  cases hb : busTxn s c with
  | some txn =>
    rw [exec_bus s c hb] at he
    rw [← Host.Outcome.next.inj he]
    have hpins : QueueFits { s with pins := busPins s c } := h.of_posts rfl
    exact busInvariant_queueFits.arrive hpins txn
  | none =>
    cases c <;> simp only [busTxn, reduceCtorEq] at hb <;> rw [← Host.Outcome.next.inj he]
    case powerOnReset => exact queueFits_resetFromPin _ _ _
    case resetN => exact queueFits_resetFromPin _ _ _
    case openingWrite => exact h.of_posts (posts_openingStep s)
    case fill => exact h.of_posts (posts_fillStep s)
    case sweepSettingRead => exact h.of_posts (posts_sweepSettingStep s)
    case adoption => exact h.of_posts (posts_adoptStep s)
    case closingWrites => exact h.of_posts (posts_closingStep s)
    case entryToRun => exact h.entryStep
    case callTick => exact h.eventsLead (eventsLead_callTick s)
    case secondTick => exact h.eventsLead (eventsLead_queueSecond s)
    case slotSecondTick => exact h.eventsLead (eventsLead_slotSecond s)
    case presentationExpiry n => exact h.eventsLead (eventsLead_presentationExpires s n)
    case breakInOfferExpiry n => exact h.eventsLead (eventsLead_offerExpires s n)
    case holdRecallExpiry n => exact h.eventsLead (eventsLead_recallExpiry s n .held)
    case transferRecallExpiry n => exact h.eventsLead (eventsLead_recallExpiry s n .extended)
    case campRecallExpiry n => exact h.eventsLead (eventsLead_recallExpiry s n .camped)
    case wrapUpExpiry p => exact h.eventsLead (eventsLead_wrapUpExpires s p)
    case supervisionExpiry => exact h.eventsLead (eventsLead_supervisionExpires s)
    case post => exact h.issuePost
    case owedIssue => exact h.issueOwed

end

/-- Settles O6: an event gives the queue each of its words once, and of a full queue at most one entry is locked. -/
theorem stepKeepsThePostingQueueBounded : Obligations.StepKeepsThePostingQueueBounded := by
  intro s t hs hstep
  have h : QueueFits s := queueFits_iff.2 hs
  refine queueFits_iff.1 ?_
  unfold step at hstep
  split at hstep
  · rw [← Host.Outcome.next.inj hstep]
    exact h.eventsLead (eventsLead_clkref s)
  · rename_i c rest _
    have hrest : QueueFits { s with pending := rest } := h.of_posts rfl
    exact hrest.exec c hstep

end Sys2Proof.Machine
end

section
/-! PROOFS. Posted words on their way to memory (R163): what memory will hold at a word once the owed issues, the held
access and the Posting Queue have been written, after each operation of the S-side. -/

namespace Sys2Proof.Machine

open Sys2Proof.Safety

section
variable {s t u : State} {off : Offset} {e : Post}

/-! Accesses. -/

/-- The word at `addr` once the access `a` has been made, where `old` stood. -/
def Access.over (a : Access) (addr : BusAddr) (old : Word32) : Word32 :=
  match a with
  | .write target lanes data => if target = addr then mergeLanes lanes data old else old
  | _ => old

/-- The access `a` does not write the word at `addr`. -/
def Access.Spares (a : Access) (addr : BusAddr) : Prop := ∀ lanes data, a ≠ .write addr lanes data

theorem Access.Spares.over_eq {a : Access} {addr : BusAddr} (h : a.Spares addr) (old : Word32) :
    a.over addr old = old := by
  cases a with
  | write target lanes data => exact if_neg fun heq : target = addr => h lanes data (by rw [heq])
  | _ => rfl

/-- An access that begins no reset changes the reply and the word it writes, and keeps memory canonical (R134). -/
theorem perform_spec (hwf : s.mem.wf = true) {a : Access} (ha : ∀ addr data, a ≠ .restart addr data) :
    ∃ m r, s.perform a = { s with mem := m, reply := r } ∧ m.wf = true ∧
      ∀ addr, m.readWord addr = a.over addr (s.mem.readWord addr) := by
  cases a with
  | write target lanes data =>
    refine ⟨_, _, rfl, Memory.writeWord_wf _ _ _ hwf, fun addr => ?_⟩
    by_cases htarget : target = addr
    · rw [← htarget, Memory.readWord_writeWord_same _ _ _ hwf]
      exact (if_pos rfl).symm
    · rw [Memory.readWord_writeWord_ne _ _ _ (Ne.symm htarget)]
      exact (if_neg htarget).symm
  | restart addr data => exact absurd rfl (ha addr data)
  | _ => exact ⟨_, _, rfl, hwf, fun _ => rfl⟩

/-! Window words, and a write the part makes of one. -/

theorem addr_congr (hstraps : t.straps = s.straps) (off : Offset) : t.addr off = s.addr off := by
  rw [State.addr, hstraps]
  rfl

theorem mem_putWord (s : State) (off : Offset) (v : Word32) :
    (s.putWord off v).mem = s.mem.writeWord (s.addr off) fullLanes v := rfl

theorem wf_putWord (hwf : s.mem.wf = true) (off : Offset) (v : Word32) : (s.putWord off v).mem.wf = true := by
  rw [mem_putWord]
  exact Memory.writeWord_wf _ _ _ hwf

theorem readWord_putWord_same (hwf : s.mem.wf = true) (off : Offset) (v : Word32) :
    (s.putWord off v).mem.readWord (s.addr off) = v := by
  rw [mem_putWord, Memory.readWord_writeWord_same _ _ _ hwf, mergeLanes_full]

theorem readWord_putWord_ne {w : Offset} (hw : w ≠ off) (v : Word32) :
    (s.putWord off v).mem.readWord (s.addr w) = s.mem.readWord (s.addr w) := by
  rw [mem_putWord]
  exact Memory.readWord_writeWord_ne _ _ _ fun h => hw (s.addr_inj h)

/-! The word once the owed issues are written. -/

theorem owedWord_of_empty (ho : s.owed = []) (off : Offset) : owedWord s off = s.mem.readWord (s.addr off) := by
  simp [owedWord, ho]

/-- Issues owed anew for other words leave the word. -/
theorem owedWord_append_other {p o : List Post} (h : off ∉ o.map Post.offset) :
    owedWord { s with posts := p, owed := s.owed ++ o } off = owedWord s off := by
  have hnone : o.filter (fun e => decide (e.offset = off)) = [] := by
    rw [List.filter_eq_nil_iff]
    intro e he heq
    exact h (of_decide_eq_true heq ▸ List.mem_map_of_mem he)
  unfold owedWord
  simp only [List.filter_append, hnone, List.append_nil]
  rfl

/-- The one issue owed anew for a word is the last to be written. -/
theorem owedWord_append_new {p o : List Post} (hn : (o.map Post.offset).Nodup) (he : e ∈ o) :
    owedWord { s with posts := p, owed := s.owed ++ o } e.offset = e.value := by
  have hlast : (o.filter fun x => decide (x.offset = e.offset)).getLast? = some e := by
    obtain ⟨before, after, rfl⟩ := List.append_of_mem he
    rw [List.map_append, List.map_cons, List.nodup_append, List.nodup_cons] at hn
    have hafter : after.filter (fun x => decide (x.offset = e.offset)) = [] := by
      rw [List.filter_eq_nil_iff]
      intro x hx heq
      exact hn.2.1.1 (of_decide_eq_true heq ▸ List.mem_map_of_mem hx)
    simp [hafter]
  unfold owedWord
  simp only [List.filter_append, List.getLast?_append, hlast, Option.some_or]

/-- The oldest owed issue written is no longer owed, and the word is as before (R167). -/
theorem owedWord_issued {rest : List Post} (hwf : s.mem.wf = true) (ho : s.owed = e :: rest) (off : Offset) :
    owedWord ({ s with owed := rest }.putWord e.offset e.value) off = owedWord s off := by
  have hsame : s.owed.filter (fun x => decide (x.offset = off)) =
      if e.offset = off then e :: rest.filter (fun x => decide (x.offset = off))
      else rest.filter fun x => decide (x.offset = off) := by
    rw [ho, List.filter_cons]
    simp only [decide_eq_true_eq]
  have howed : ({ s with owed := rest }.putWord e.offset e.value).owed = rest := rfl
  unfold owedWord
  rw [howed, hsame]
  by_cases hoff : e.offset = off
  · rw [if_pos hoff, List.getLast?_cons]
    cases hlast : (rest.filter fun x => decide (x.offset = off)).getLast? with
    | some last => rfl
    | none => rw [← hoff]; exact readWord_putWord_same (s := { s with owed := rest }) hwf e.offset e.value
  · rw [if_neg hoff]
    cases hlast : (rest.filter fun x => decide (x.offset = off)).getLast? with
    | some last => rfl
    | none => exact readWord_putWord_ne (s := { s with owed := rest }) (Ne.symm hoff) e.value

/-! The word once the held access is made as well. -/

theorem heldWord_of_free (hh : s.held = none) (off : Offset) : heldWord s off = owedWord s off := by
  unfold heldWord
  rw [hh]

theorem heldWord_of_held {h : Held} (hh : s.held = some h) (off : Offset) :
    heldWord s off = h.access.over (s.addr off) (owedWord s off) := by
  obtain ⟨txn, access, behind⟩ := h
  unfold heldWord
  rw [hh]
  cases access <;> rfl

/-- The word depends on the owed issues, the held access and the straps alone. -/
theorem heldWord_congr (hheld : t.held.map Held.access = s.held.map Held.access) (hstraps : t.straps = s.straps)
    (howed : owedWord t off = owedWord s off) : heldWord t off = heldWord s off := by
  have haddr := addr_congr hstraps off
  cases hs : s.held with
  | none =>
    have ht : t.held = none := by simpa [hs] using hheld
    rw [heldWord_of_free hs, heldWord_of_free ht, howed]
  | some h =>
    obtain ⟨g, ht, hg⟩ : ∃ g, t.held = some g ∧ g.access = h.access := by simpa [hs] using hheld
    rw [heldWord_of_held hs, heldWord_of_held ht, hg, haddr, howed]

/-- The held access leaves a word it does not write. -/
theorem heldWord_of_not_heldWrites (h : ¬heldWrites s off) : heldWord s off = owedWord s off := by
  cases hs : s.held with
  | none => exact heldWord_of_free hs off
  | some held =>
    rw [heldWord_of_held hs]
    refine Access.Spares.over_eq (fun lanes data ha => h ?_) _
    obtain ⟨txn, access, behind⟩ := held
    obtain rfl : access = .write (s.addr off) lanes data := ha
    unfold heldWrites
    rw [hs]

theorem heldWrites_congr (hheld : t.held = s.held) (hstraps : t.straps = s.straps) (off : Offset) :
    heldWrites t off ↔ heldWrites s off := by
  have haddr := addr_congr hstraps off
  unfold heldWrites
  rw [hheld, haddr]

/-! The word once the queue has issued its entry too. -/

theorem settledWord_of_mem (hn : (s.posts.map Post.offset).Nodup) (he : e ∈ s.posts) :
    settledWord s e.offset = e.value := by
  unfold settledWord
  rw [find?_given hn he]

theorem settledWord_of_not_mem (h : off ∉ s.posts.map Post.offset) : settledWord s off = heldWord s off := by
  have hnone : s.posts.find? (fun e => decide (e.offset = off)) = none :=
    List.find?_eq_none.2 fun e he heq => h (of_decide_eq_true heq ▸ List.mem_map_of_mem he)
  unfold settledWord
  rw [hnone]

/-- Where the queue is the same, the word depends on what memory will hold without it. -/
theorem settledWord_congr (hposts : t.posts = s.posts) (hheld : heldWord t off = heldWord s off) :
    settledWord t off = settledWord s off := by
  unfold settledWord
  rw [hposts, hheld]

theorem settledWord_of_storePart (h : t.storePart = s.storePart) (off : Offset) :
    settledWord t off = settledWord s off := by
  obtain ⟨hstraps, hheld, hposts, howed, hmem, -, -⟩ := storePart_eq_iff.1 h
  refine settledWord_congr hposts (heldWord_congr (congrArg _ hheld) hstraps ?_)
  unfold owedWord
  rw [howed, hmem, addr_congr hstraps]

/-- `s` with the access of a transaction held (R167). -/
def State.holding (s : State) (h : Held) : State := { s with held := some h }

theorem heldWord_holding (s : State) (h : Held) (off : Offset) :
    heldWord (s.holding h) off = h.access.over (s.addr off) (owedWord s off) :=
  heldWord_of_held (s := s.holding h) rfl off

theorem postedValue_holding (s : State) (h : Held) (off : Offset) : (s.holding h).postedValue off = s.postedValue off :=
  postedValue_bus s s.lock s.posts s.owed s.bus (some h) s.mem s.reply off

/-- An access that waits for nothing may as well be held: the words settle alike (R166, R167). -/
theorem settledWord_perform (hwf : s.mem.wf = true) (hh : s.held = none) {h : Held}
    (ha : ∀ addr data, h.access ≠ .restart addr data) (hmade : s.owed = [] ∨ h.access = .nothing) (off : Offset) :
    settledWord (s.perform h.access) off = settledWord (s.holding h) off := by
  obtain ⟨m, r, heq, -, hread⟩ := perform_spec hwf ha
  have hmade : heldWord (s.perform h.access) off = h.access.over (s.addr off) (owedWord s off) := by
    rw [heldWord_of_free (by rw [heq]; exact hh)]
    rcases hmade with ho | hnothing
    · rw [owedWord_of_empty (by rw [heq]; exact ho), owedWord_of_empty ho, heq]
      exact hread _
    · rw [hnothing]
      rfl
  exact settledWord_congr (by rw [heq]; rfl) (hmade.trans (heldWord_holding s h off).symm)

/-! Words given to the queue (R163, R164). -/

/-- No issue that `t` owes beyond those of `s` is for a word that a held write of `s` carries (log entry 12). -/
def OwesBesideHeld (s t : State) : Prop := ∀ e ∈ t.owed.drop s.owed.length, ¬heldWrites s e.offset

theorem owesBesideHeld_of_free (hh : s.held = none) (t : State) : OwesBesideHeld s t := by
  intro e _ hwrites
  unfold heldWrites at hwrites
  rw [hh] at hwrites
  exact hwrites

/-- The entries queued or owed anew settle their words. -/
theorem settledWord_requeued {p o : List Post} (hn : ((p ++ o).map Post.offset).Nodup) (he : e ∈ p ++ o)
    (hbeside : ∀ x ∈ o, ¬heldWrites s x.offset) :
    settledWord { s with posts := p, owed := s.owed ++ o } e.offset = e.value := by
  rw [List.map_append, List.nodup_append] at hn
  obtain ⟨hp, ho, hdisjoint⟩ := hn
  rcases List.mem_append.1 he with hqueued | howed
  · exact settledWord_of_mem (s := { s with posts := p, owed := s.owed ++ o }) hp hqueued
  · have hout : e.offset ∉ p.map Post.offset := fun hin => hdisjoint _ hin _ (List.mem_map_of_mem howed) rfl
    rw [settledWord_of_not_mem (s := { s with posts := p, owed := s.owed ++ o }) hout]
    rw [heldWord_of_not_heldWrites (s := { s with posts := p, owed := s.owed ++ o }) (hbeside e howed)]
    exact owedWord_append_new ho howed

/-- A word with no entry queued or owed anew is as memory will hold it. -/
theorem settledWord_unqueued {p o : List Post} (h : off ∉ (p ++ o).map Post.offset) :
    settledWord { s with posts := p, owed := s.owed ++ o } off = heldWord s off := by
  rw [List.map_append, List.mem_append, not_or] at h
  rw [settledWord_of_not_mem (s := { s with posts := p, owed := s.owed ++ o }) h.1]
  exact heldWord_congr rfl rfl (owedWord_append_other h.2)

section
variable {given : List Post} (hq : QueueFits s) (hn : (given.map Post.offset).Nodup)
  (hposted : ∀ g ∈ given, (placeOf g.offset).isPosted = true) (hbeside : OwesBesideHeld s (s.givePosts given))
include hq hn hposted hbeside

/-- What the queue is given, and what it leaves: the words given settle at the values given, the others as before. -/
theorem settledWord_givePosts : (∀ g ∈ given, settledWord (s.givePosts given) g.offset = g.value) ∧
    ∀ off, off ∉ given.map Post.offset → settledWord (s.givePosts given) off = settledWord s off := by
  obtain ⟨p, o, heq, hin, hold, hfrom, hbounds⟩ := givePosts_spec s given hn
  obtain ⟨-, hnodup⟩ := hbounds (queueFits_iff.1 hq) hposted
  have hnew : ∀ x ∈ o, ¬heldWrites s x.offset := by
    intro x hx
    refine hbeside x ?_
    rw [heq]
    simpa using hx
  rw [heq]
  refine ⟨fun g hg => settledWord_requeued hnodup (hin g hg) hnew, fun off hoff => ?_⟩
  by_cases hqueued : off ∈ s.posts.map Post.offset
  · obtain ⟨e, he, rfl⟩ := List.mem_map.1 hqueued
    rw [settledWord_requeued hnodup (hold e he hoff) hnew, settledWord_of_mem hq.nodup he]
  · have hout : off ∉ (p ++ o).map Post.offset := by
      intro hmem
      obtain ⟨e, he, rfl⟩ := List.mem_map.1 hmem
      rcases hfrom e he with hgiven | ⟨hkept, -⟩
      · exact hoff (List.mem_map_of_mem hgiven)
      · exact hqueued (List.mem_map_of_mem hkept)
    rw [settledWord_unqueued hout, settledWord_of_not_mem hqueued]

end

theorem settledWord_dropPost {w : Offset} (hw : off ≠ w) : settledWord (s.dropPost w) off = settledWord s off := by
  have hfind : (s.posts.filter fun e => decide (e.offset ≠ w)).find? (fun e => decide (e.offset = off)) =
      s.posts.find? fun e => decide (e.offset = off) := by
    rw [List.find?_filter]
    congr 1
    funext e
    by_cases h : e.offset = off <;> simp [h, hw]
  unfold settledWord
  rw [State.dropPost, hfind]
  rfl

/-- With its entry dropped and not given again, a word has no entry (R170). -/
theorem not_mem_posts_postingExcept (before : State) (off : Offset) :
    off ∉ (s.postingExcept before off).posts.map Post.offset := by
  obtain ⟨p, o, heq, -, -, hfrom, -⟩ := givePosts_spec (s.dropPost off) (keptPosts before s off)
    (keptPosts_nodup before s off)
  have hposts : (s.postingExcept before off).posts = p := congrArg State.posts heq
  rw [hposts]
  intro hmem
  obtain ⟨e, he, hoff⟩ := List.mem_map.1 hmem
  rcases hfrom e (List.mem_append_left o he) with hgiven | ⟨hkept, -⟩
  · exact of_decide_eq_true (List.mem_filter.1 hgiven).2 hoff
  · exact of_decide_eq_true (List.mem_filter.1 hkept).2 hoff

end

end Sys2Proof.Machine
end

section
/-! PROOFS. Memory follows the part in RUN (R163): posts, owed issues, and window writes with their own accesses. -/

namespace Sys2Proof.Machine

open Sys2Proof.Safety

section
variable {s t u q : State} {off : Offset} {e : Post} {txn : Txn} {a : Access}

/-- RUN, with a canonical memory and the bounds of the Posting Queue kept. -/
structure RunSound (s : State) : Prop where
  seq : s.seq = .run
  stage : s.stage = .running
  wf : s.mem.wf = true
  queue : QueueFits s

theorem RunSound.congr (h : RunSound s) (hseq : t.seq = s.seq) (hstage : t.stage = s.stage) (hwf : t.mem.wf = true)
    (hqueue : QueueFits t) : RunSound t := ⟨hseq.trans h.seq, hstage.trans h.stage, hwf, hqueue⟩

/-- In RUN every posted word is in memory, or on its way there, with its owner's value (R163). -/
structure FollowsInRun (s : State) : Prop extends RunSound s where
  settled : ∀ off ∈ postedOffsets, settledWord s off = s.postedValue off

/-- What memory will hold without the queue is the same for every posted word, and so are the queue and its owners'
values. -/
theorem FollowsInRun.congr (h : FollowsInRun s) (ht : RunSound t) (hposts : t.posts = s.posts)
    (hheld : ∀ off ∈ postedOffsets, heldWord t off = heldWord s off)
    (hvalue : ∀ off ∈ postedOffsets, t.postedValue off = s.postedValue off) : FollowsInRun t where
  toRunSound := ht
  settled off hoff := by rw [settledWord_congr hposts (hheld off hoff), h.settled off hoff, hvalue off hoff]

/-- Memory follows the part, in RUN and before it, with what it takes for a step to keep that so. -/
structure MemoryKept (s : State) : Prop where
  wf : s.mem.wf = true
  queue : QueueFits s
  agrees : StartUpAgrees s
  follows : MemoryFollows s

theorem FollowsInRun.kept (h : FollowsInRun s) : MemoryKept s where
  wf := h.wf
  queue := h.queue
  agrees := ⟨iff_of_true h.seq h.stage, fun hr => absurd h.seq hr, by rw [h.stage]; trivial⟩
  follows := by
    unfold MemoryFollows
    rw [h.stage]
    exact h.settled

theorem MemoryKept.inRun (h : MemoryKept s) (hr : s.seq = .run) : FollowsInRun s := by
  obtain ⟨hrun, -⟩ := h.agrees
  have hfollows := h.follows
  unfold MemoryFollows at hfollows
  rw [hrun.1 hr] at hfollows
  exact ⟨⟨hr, hrun.1 hr, h.wf, h.queue⟩, hfollows⟩

/-- A reset leaves RUN, and the sequencer has written nothing yet (R189). -/
theorem memoryKept_resetBlocks (hwf : s.mem.wf = true) (cause : ResetCause) {phase : Seq} (hp : phase ≠ .run) :
    MemoryKept (s.resetBlocks cause phase) := by
  obtain ⟨-, -, -, -, -, hagrees, -⟩ := agrees_resetBlocks s cause hp
  exact ⟨hwf, queueFits_of_empty rfl, hagrees, trivial⟩

/-! Events and their posts. -/

/-- A change that neither the S-side nor a posted word shows. -/
theorem FollowsInRun.quiet (h : FollowsInRun s) (hstore : t.storePart = s.storePart)
    (hvalue : ∀ off ∈ postedOffsets, t.postedValue off = s.postedValue off) : FollowsInRun t := by
  obtain ⟨-, -, hposts, -, hmem, hseq, hstage⟩ := storePart_eq_iff.1 hstore
  refine ⟨h.toRunSound.congr hseq hstage (hmem ▸ h.wf) (h.queue.of_posts hposts), fun off hoff => ?_⟩
  rw [settledWord_of_storePart hstore, hvalue off hoff]
  exact h.settled off hoff

/-- Giving words to the queue changes the queue and the owed issues alone. -/
theorem givePosts_eq {given : List Post} (hn : (given.map Post.offset).Nodup) :
    ∃ p o, s.givePosts given = { s with posts := p, owed := s.owed ++ o } := by
  obtain ⟨p, o, heq, -⟩ := givePosts_spec s given hn
  exact ⟨p, o, heq⟩

theorem postedValue_givePosts {given : List Post} (hn : (given.map Post.offset).Nodup) (hoff : off ∈ postedOffsets) :
    (s.givePosts given).postedValue off = s.postedValue off := by
  obtain ⟨p, o, heq⟩ := givePosts_eq (s := s) hn
  rw [heq]
  exact postedValue_congr hoff rfl fun _ => rfl

/-- A posted word the event does not give reads as before it (R163). -/
theorem postedValue_of_not_given (hoff : off ∈ postedOffsets) (h : off ∉ (changedPosts s q).map Post.offset) :
    q.postedValue off = s.postedValue off := by
  by_contra hne
  refine h (List.mem_map_of_mem (f := Post.offset) (a := ⟨off, q.postedValue off⟩) ?_)
  exact mem_changedPosts.2 ⟨⟨hoff, .inl (Ne.symm hne)⟩, rfl⟩

/-- Words given with their owners' values settle at them, and so do the words that settled at them before. -/
theorem settled_givePosts {given : List Post} (hq : QueueFits s) (hn : (given.map Post.offset).Nodup)
    (hposted : ∀ g ∈ given, (placeOf g.offset).isPosted = true) (hbeside : OwesBesideHeld s (s.givePosts given))
    (hvalue : ∀ g ∈ given, g.value = s.postedValue g.offset) (hoff : off ∈ postedOffsets)
    (hother : off ∉ given.map Post.offset → settledWord s off = s.postedValue off) :
    settledWord (s.givePosts given) off = (s.givePosts given).postedValue off := by
  obtain ⟨hin, hout⟩ := settledWord_givePosts hq hn hposted hbeside
  rw [postedValue_givePosts hn hoff]
  by_cases hgiven : off ∈ given.map Post.offset
  · obtain ⟨g, hg, rfl⟩ := List.mem_map.1 hgiven
    rw [hin g hg, hvalue g hg]
  · rw [hout off hgiven, hother hgiven]

theorem settledWord_of_not_given (h : FollowsInRun s) (hstore : q.storePart = s.storePart) (hoff : off ∈ postedOffsets)
    (hgiven : off ∉ (changedPosts s q).map Post.offset) : settledWord q off = q.postedValue off := by
  rw [settledWord_of_storePart hstore, h.settled off hoff, postedValue_of_not_given hoff hgiven]

/-- An event of the owners, with its posts (R163). -/
theorem FollowsInRun.posting (h : FollowsInRun s) (hstore : q.storePart = s.storePart)
    (hbeside : OwesBesideHeld s (q.posting s)) : FollowsInRun (q.posting s) := by
  obtain ⟨hstraps, hheld, hposts, howed, hmem, hseq, hstage⟩ := storePart_eq_iff.1 hstore
  have hq : QueueFits q := h.queue.of_posts hposts
  have hbeside' : OwesBesideHeld q (q.posting s) := fun e he hwrites =>
    hbeside e (by rwa [howed] at he) ((heldWrites_congr hheld hstraps _).1 hwrites)
  obtain ⟨p, o, heq⟩ := givePosts_eq (s := q) (changedPosts_nodup s q)
  have heq' : q.posting s = { q with posts := p, owed := q.owed ++ o } := heq
  refine ⟨⟨by rw [heq']; exact hseq.trans h.seq, by rw [heq']; exact hstage.trans h.stage,
    by rw [heq']; exact hmem ▸ h.wf, hq.posting s⟩, fun off hoff => ?_⟩
  exact settled_givePosts hq (changedPosts_nodup s q) (changedPosts_posted s q) hbeside'
    (fun g hg => (mem_changedPosts.1 hg).2) hoff (settledWord_of_not_given h hstore hoff)

/-- Events add to the owed issues, and leave the held access and the straps. -/
theorem EventsLead.frame (e : EventsLead s t) : s.owed <+: t.owed ∧ t.held = s.held ∧ t.straps = s.straps := by
  induction e with
  | quiet hstore _ =>
    obtain ⟨hstraps, hheld, -, howed, -⟩ := storePart_eq_iff.1 hstore
    exact ⟨howed ▸ List.prefix_rfl, hheld, hstraps⟩
  | @posting s q hstore =>
    obtain ⟨hstraps, hheld, -, howed, -⟩ := storePart_eq_iff.1 hstore
    obtain ⟨p, o, heq⟩ := givePosts_eq (s := q) (changedPosts_nodup s q)
    rw [State.posting, heq]
    exact ⟨⟨o, by rw [howed]⟩, hheld, hstraps⟩
  | trans _ _ ih ih' =>
    obtain ⟨howed, hheld, hstraps⟩ := ih
    obtain ⟨howed', hheld', hstraps'⟩ := ih'
    exact ⟨howed.trans howed', hheld'.trans hheld, hstraps'.trans hstraps⟩

theorem FollowsInRun.eventsLead (h : FollowsInRun s) (e : EventsLead s t) (hbeside : OwesBesideHeld s t) :
    FollowsInRun t := by
  induction e with
  | quiet hstore hvalue => exact h.quiet hstore hvalue
  | posting hstore => exact h.posting hstore hbeside
  | @trans s u t first second ih ih' =>
    obtain ⟨howed, hheld, hstraps⟩ := first.frame
    obtain ⟨howed', -⟩ := second.frame
    have hfirst : OwesBesideHeld s u := fun e he => hbeside e ((howed'.drop _).subset he)
    have hsecond : OwesBesideHeld u t := fun e he hwrites =>
      hbeside e ((List.drop_subset_drop_left _ howed.length_le) he) ((heldWrites_congr hheld hstraps _).1 hwrites)
    exact ih' (ih h hfirst) hsecond

/-! A transaction's own access. -/

theorem RunSound.holding (h : RunSound s) (held : Held) : RunSound (s.holding held) :=
  h.congr rfl rfl h.wf (h.queue.of_posts rfl)

/-- An access that writes no posted word is held. -/
theorem FollowsInRun.holding (h : FollowsInRun s) (hh : s.held = none) {held : Held}
    (hspares : ∀ off ∈ postedOffsets, held.access.Spares (s.addr off)) : FollowsInRun (s.holding held) := by
  refine h.congr (h.toRunSound.holding held) rfl (fun off hoff => ?_) fun off _ => postedValue_holding s held off
  rw [heldWord_holding, (hspares off hoff).over_eq, heldWord_of_free hh]

/-- An access that waits its turn while the issues in front of it are written (R167). -/
theorem FollowsInRun.waits {held : Held} (h : FollowsInRun s) (hh : s.held = some held) (k : Nat) :
    FollowsInRun (s.holding { held with behind := k }) := by
  refine h.congr (h.toRunSound.holding _) rfl (fun off _ => ?_) fun off _ => postedValue_holding s _ off
  rw [heldWord_holding, heldWord_of_held hh]

/-- A held access that waits for nothing is made, and the transaction completes (R134, R139, R144). -/
theorem FollowsInRun.perform {held : Held} (h : FollowsInRun (u.holding held)) (hh : u.held = none)
    (hmade : u.owed = [] ∨ held.access = .nothing) : MemoryKept (u.perform held.access) := by
  by_cases hrestart : ∃ addr data, held.access = .restart addr data
  · obtain ⟨addr, data, ha⟩ := hrestart
    rw [ha]
    exact memoryKept_resetBlocks (s := { u with mem := u.mem.writeWord addr fullLanes data })
      (Memory.writeWord_wf addr fullLanes data h.wf) _ (by decide)
  · have ha : ∀ addr data, held.access ≠ .restart addr data := fun addr data heq => hrestart ⟨addr, data, heq⟩
    obtain ⟨m, r, heq, hwf, -⟩ := perform_spec (s := u) h.wf ha
    have hsound : RunSound (u.perform held.access) := by
      rw [heq]
      exact h.toRunSound.congr rfl rfl hwf (h.queue.of_posts rfl)
    refine FollowsInRun.kept ⟨hsound, fun off hoff => ?_⟩
    rw [settledWord_perform (s := u) h.wf hh ha hmade]
    refine (h.settled off hoff).trans ?_
    rw [heq]
    exact postedValue_congr hoff rfl fun _ => rfl

/-- The same where the access has been held. -/
theorem FollowsInRun.performHeld {held : Held} (h : FollowsInRun s) (hh : s.held = some held)
    (hmade : s.owed = [] ∨ held.access = .nothing) :
    MemoryKept (State.perform { s with held := none } held.access) := by
  refine FollowsInRun.perform ?_ rfl hmade
  have hsame : State.holding { s with held := none } held = s := by
    rw [State.holding, ← hh]
  rw [hsame]
  exact h

theorem FollowsInRun.complete {owed : List Post} (h : FollowsInRun (u.holding ⟨txn, a, u.owed.length⟩))
    (hh : u.held = none) : MemoryKept (u.complete txn owed a) := by
  unfold State.complete
  split
  · rename_i hmade
    refine h.perform hh ?_
    simp only [Bool.or_eq_true, Bool.and_eq_true, decide_eq_true_eq, List.isEmpty_iff] at hmade
    exact hmade.imp id And.left
  · exact h.kept

/-! Window writes (R147). -/

theorem place_reach (s : State) (off : Offset) : placeOf (s.reach off).offset = (s.reach off).place := by
  cases hplace : placeOf off with
  | view p i =>
    cases hcurrent : s.currentSlot p with
    | none => simp only [State.reach, hplace, hcurrent]
    | some n =>
      simp only [State.reach, hplace, hcurrent]
      exact placeOf_slotOffset n i.isLt
  | _ => rw [reach_of_placeOf s off (by simp [hplace])]

/-- The own access of a window write: it carries a posted word with the part's value of it (R137, R144), or it writes
none. -/
def WriteEffect.Fits (e : WriteEffect) (s : State) : Prop :=
  (∃ off ∈ postedOffsets, e.carries = some off ∧
    e.access = .write (s.addr off) fullLanes (e.state.postedValue off)) ∨
  (e.carries = none ∧ ∀ off ∈ postedOffsets, e.access.Spares (s.addr off))

theorem strayEffect_fits (s : State) (txn : Txn) {r : Reached} (hplace : placeOf r.offset = r.place) :
    (s.strayEffect txn r).Fits s := by
  unfold State.strayEffect
  dsimp only
  split
  · rename_i hposted
    refine .inl ⟨r.offset, mem_postedOffsets.2 (hplace ▸ hposted), rfl, ?_⟩
    dsimp only [State.fullWrite]
    rw [addr_congr (kept_raiseFault s _).straps]
  · exact .inr ⟨rfl, fun _ _ _ _ => by simp⟩

theorem acknowledgeEffect_fits (s : State) (txn : Txn) {r : Reached} (hoff : r.offset ∈ postedOffsets) :
    (s.acknowledgeEffect txn r).Fits s := by
  refine .inl ⟨r.offset, hoff, rfl, ?_⟩
  dsimp only [State.acknowledgeEffect, State.fullWrite]
  rw [addr_congr (kept_acknowledge s _).straps]

/-- A write at a word that is not posted carries none and spares them all. -/
theorem fits_of_write {e : WriteEffect} {w : Offset} (hw : (placeOf w).isPosted = false) (hcarries : e.carries = none)
    (haccess : ∀ addr lanes data, e.access = .write addr lanes data → addr = s.addr w) : e.Fits s := by
  refine .inr ⟨hcarries, fun off hoff lanes data ha => ?_⟩
  have heq := s.addr_inj (haccess _ _ _ ha)
  have hposted := mem_postedOffsets.1 hoff
  rw [heq, hw] at hposted
  exact Bool.false_ne_true hposted

theorem rightfulEffect_fits (s : State) (txn : Txn) {r : Reached} (hplace : placeOf r.offset = r.place)
    (hr : mayWrite r.place (requesterOf txn) = true) : (s.rightfulEffect txn r).Fits s := by
  by_cases hposted : r.place.isPosted = true
  · have hattention : r.place = .attention := by
      cases hp : r.place <;> simp_all [Place.isPosted, mayWrite]
    have heffect : s.rightfulEffect txn r = s.acknowledgeEffect txn r := by
      simp [State.rightfulEffect, hattention, Place.isCommand]
    rw [heffect]
    exact acknowledgeEffect_fits s txn (mem_postedOffsets.2 (hplace ▸ hposted))
  · have hw : (placeOf r.offset).isPosted = false := by simpa [hplace] using hposted
    have hwrite : ∀ (v : State) (lanes : Lanes) (data : Word32),
        (⟨v, .write (s.addr r.offset) lanes data, none⟩ : WriteEffect).Fits s := by
      intro v lanes data
      refine fits_of_write hw rfl fun addr _ _ ha => ?_
      exact (Access.write.inj ha).1.symm
    unfold State.rightfulEffect
    split
    · exact hwrite _ _ _
    · split
      · rename_i hp
        exact absurd (by rw [hp]; rfl) hposted
      · exact hwrite _ _ _
      · exact hwrite _ _ _
      · exact hwrite _ _ _
      · exact hwrite _ _ _
      · unfold State.restartEffect
        split
        · exact fits_of_write hw rfl fun _ _ _ ha => by simp at ha
        · exact hwrite _ _ _
      · exact hwrite _ _ _
      · exact hwrite _ _ _
      · exact hwrite _ _ _
      · unfold State.viewEffect
        split <;> exact hwrite _ _ _
      · exact hwrite _ _ _

theorem writeEffect_fits (s : State) (txn : Txn) (off : Offset) : (s.writeEffect txn (s.reach off)).Fits s := by
  unfold State.writeEffect
  split
  · rename_i hr
    exact rightfulEffect_fits s txn (place_reach s off) hr
  · exact strayEffect_fits s txn (place_reach s off)

/-- The C-side is free, the queue has no entry for the word at `w`, and every other posted word follows (R170). -/
structure FollowsBeside (w : Offset) (s : State) : Prop extends RunSound s where
  free : s.held = none
  dropped : w ∉ s.posts.map Post.offset
  settled : ∀ off ∈ postedOffsets, off ≠ w → settledWord s off = s.postedValue off

/-- Once the write that carries the word at `w` is held, that word follows too. -/
theorem FollowsBeside.holding {w : Offset} (h : FollowsBeside w s) {held : Held}
    (ha : held.access = .write (s.addr w) fullLanes (s.postedValue w)) : FollowsInRun (s.holding held) where
  toRunSound := h.toRunSound.holding held
  settled off hoff := by
    rw [postedValue_holding]
    by_cases hw : off = w
    · rw [settledWord_of_not_mem (s := s.holding held) (hw ▸ h.dropped), heldWord_holding, ha, hw]
      exact (if_pos rfl).trans (mergeLanes_full _ _)
    · have hspares : held.access.Spares (s.addr off) := by
        intro lanes data heq
        rw [ha] at heq
        exact hw (s.addr_inj (Access.write.inj heq).1).symm
      have hword : heldWord (s.holding held) off = heldWord s off := by
        rw [heldWord_holding, hspares.over_eq, heldWord_of_free h.free]
      rw [settledWord_congr (s := s) (t := s.holding held) rfl hword, h.settled off hoff hw]

/-- The posts of an event whose own write carries the word at `w`. -/
theorem FollowsInRun.postingExcept (h : FollowsInRun s) (hh : s.held = none) (hstore : q.storePart = s.storePart)
    (w : Offset) : FollowsBeside w (q.postingExcept s w) := by
  obtain ⟨-, hheld, hposts, -, hmem, hseq, hstage⟩ := storePart_eq_iff.1 hstore
  have hq : QueueFits q := h.queue.of_posts hposts
  have hn := keptPosts_nodup s q w
  have hfree : (q.dropPost w).held = none := hheld.trans hh
  obtain ⟨p, o, heq⟩ := givePosts_eq (s := q.dropPost w) hn
  have heq' : q.postingExcept s w = { q with posts := p, owed := q.owed ++ o } := heq
  refine ⟨⟨by rw [heq']; exact hseq.trans h.seq, by rw [heq']; exact hstage.trans h.stage,
    by rw [heq']; exact hmem ▸ h.wf, hq.postingExcept s w⟩, by rw [heq']; exact hheld.trans hh,
    not_mem_posts_postingExcept s w, fun off hoff hw => ?_⟩
  refine settled_givePosts (hq.dropPost w) hn (keptPosts_posted s q w) (owesBesideHeld_of_free hfree _)
    (fun g hg => (mem_changedPosts.1 (List.mem_filter.1 hg).1).2) hoff fun hnone => ?_
  have hgiven : off ∉ (changedPosts s q).map Post.offset := by
    intro hmem
    obtain ⟨g, hg, rfl⟩ := List.mem_map.1 hmem
    exact hnone (List.mem_map_of_mem (List.mem_filter.2 ⟨hg, by simpa using hw⟩))
  rw [settledWord_dropPost hw]
  exact settledWord_of_not_given h hstore hoff hgiven

theorem postedValue_postingExcept (q before : State) {w : Offset} (hoff : off ∈ postedOffsets) :
    (q.postingExcept before w).postedValue off = q.postedValue off :=
  postedValue_givePosts (keptPosts_nodup before q w) hoff

theorem addr_postingExcept (q before : State) (w off : Offset) : (q.postingExcept before w).addr off = q.addr off := by
  obtain ⟨p, o, heq⟩ := givePosts_eq (s := q.dropPost w) (keptPosts_nodup before q w)
  exact addr_congr (congrArg State.straps heq) off

theorem FollowsInRun.finishWrite (h : FollowsInRun s) (hh : s.held = none) (lock : Option Lock) {e : WriteEffect}
    (hstore : e.state.storePart = s.storePart) (hfits : e.Fits s) : MemoryKept (State.finishWrite s txn lock e) := by
  have hlock : State.storePart { e.state with lock := lock } = s.storePart := hstore
  have hvalue : ∀ off ∈ postedOffsets, State.postedValue { e.state with lock := lock } off = e.state.postedValue off :=
    fun _ hoff => postedValue_congr hoff rfl fun _ => rfl
  unfold State.finishWrite
  dsimp only
  generalize ({ e.state with lock := lock } : State) = owners at hlock hvalue ⊢
  rcases hfits with ⟨w, hw, hcarries, haccess⟩ | ⟨hcarries, hspares⟩
  · have hbeside := h.postingExcept hh hlock w
    rw [hcarries]
    refine FollowsInRun.complete (hbeside.holding ?_) hbeside.free
    rw [postedValue_postingExcept _ _ hw, addr_postingExcept, hvalue w hw,
      addr_congr (storePart_eq_iff.1 hlock).1]
    exact haccess
  · have hfollows := h.posting hlock (owesBesideHeld_of_free hh _)
    obtain ⟨-, hheld, hstraps⟩ := (EventsLead.posting hlock).frame
    rw [hcarries]
    refine FollowsInRun.complete (hfollows.holding (hheld.trans hh) fun off hoff => ?_) (hheld.trans hh)
    rw [addr_congr hstraps]
    exact hspares off hoff

theorem FollowsInRun.takeWindow (h : FollowsInRun s) (hh : s.held = none) (txn : Txn) (off : Offset) :
    MemoryKept (s.takeWindow txn off) := by
  unfold State.takeWindow
  dsimp only
  split
  · exact h.finishWrite hh _ (storePart_writeEffect s txn _) (writeEffect_fits s txn off)
  · have hlock : FollowsInRun { s with lock := lockAfter s.lock txn (s.reach off).offset } :=
      h.quiet rfl fun _ hoff => postedValue_congr hoff rfl fun _ => rfl
    exact FollowsInRun.complete (hlock.holding hh fun _ _ _ _ => by simp) hh

/-- Traffic outside the window writes no window word (R129). -/
theorem outsideAccess_spares {wbase : BitVec 6} (hout : windowOffset wbase txn.addr = none) (off : Offset) :
    (outsideAccess txn).Spares (windowAddr wbase off) := by
  intro lanes data ha
  unfold outsideAccess at ha
  split at ha
  · rw [(Access.write.inj ha).1, windowOffset_windowAddr] at hout
    simp at hout
  · simp at ha

/-! Owed issues and posts (R165 to R167). -/

/-- The oldest owed issue is written (R167). -/
theorem FollowsInRun.issued {rest : List Post} (h : FollowsInRun s) (ho : s.owed = e :: rest) :
    FollowsInRun ({ s with owed := rest }.putWord e.offset e.value) := by
  have hwf := wf_putWord (s := { s with owed := rest }) h.wf e.offset e.value
  refine h.congr (h.toRunSound.congr rfl rfl hwf (h.queue.of_posts rfl)) rfl (fun off _ => ?_)
    fun _ hoff => postedValue_congr hoff rfl fun _ => rfl
  exact heldWord_congr rfl rfl (owedWord_issued h.wf ho off)

/-- An entry of the queue is written while nothing is owed or held: its word, and no other, leaves the queue for memory
(R165). -/
theorem settledWord_issued {before after : List Post} (hwf : s.mem.wf = true) (hq : QueueFits s) (ho : s.owed = [])
    (hh : s.held = none) (hposts : s.posts = before ++ e :: after) (off : Offset) :
    settledWord ({ s with posts := before ++ after }.putWord e.offset e.value) off = settledWord s off := by
  have hnodup := hq.nodup
  rw [hposts, List.map_append, List.map_cons, List.nodup_middle, List.nodup_cons, ← List.map_append] at hnodup
  obtain ⟨hout, hrest⟩ := hnodup
  have hmem : ∀ x, x ∈ s.posts ↔ x = e ∨ x ∈ before ++ after := by
    intro x
    rw [hposts]
    simp only [List.mem_append, List.mem_cons]
    tauto
  generalize ht : ({ s with posts := before ++ after } : State).putWord e.offset e.value = t
  have htposts : t.posts = before ++ after := by rw [← ht]; rfl
  by_cases hqueued : off ∈ (before ++ after).map Post.offset
  · obtain ⟨x, hx, rfl⟩ := List.mem_map.1 hqueued
    rw [settledWord_of_mem hq.nodup ((hmem x).2 (.inr hx)),
      settledWord_of_mem (by rwa [htposts]) (by rwa [htposts])]
  · have htheld : t.held = none := by rw [← ht]; exact hh
    have htowed : t.owed = [] := by rw [← ht]; exact ho
    have htaddr : t.addr off = s.addr off := by rw [← ht]; rfl
    rw [settledWord_of_not_mem (by rwa [htposts]), heldWord_of_free htheld, owedWord_of_empty htowed, htaddr, ← ht]
    by_cases hoff : off = e.offset
    · rw [hoff, settledWord_of_mem hq.nodup ((hmem e).2 (.inl rfl))]
      exact readWord_putWord_same (s := { s with posts := before ++ after }) hwf e.offset e.value
    · have hnone : off ∉ s.posts.map Post.offset := by
        intro hin
        obtain ⟨x, hx, rfl⟩ := List.mem_map.1 hin
        rcases (hmem x).1 hx with rfl | hx
        · exact hoff rfl
        · exact hqueued (List.mem_map_of_mem hx)
      rw [settledWord_of_not_mem hnone, heldWord_of_free hh, owedWord_of_empty ho]
      exact readWord_putWord_ne (s := { s with posts := before ++ after }) hoff e.value

theorem FollowsInRun.issuePost (h : FollowsInRun s) : FollowsInRun s.issuePost := by
  have hqueue := h.queue.issuePost
  unfold State.issuePost at hqueue ⊢
  split at hqueue
  · rename_i hfree
    rw [if_pos hfree]
    simp only [Bool.and_eq_true, decide_eq_true_eq, List.isEmpty_iff, Option.isNone_iff_eq_none] at hfree
    obtain ⟨⟨-, ho⟩, hh⟩ := hfree
    cases htake : takeOldest s.lockedOffset s.posts with
    | none => exact h
    | some taken =>
      obtain ⟨e, rest⟩ := taken
      rw [htake] at hqueue
      obtain ⟨before, after, hposts, rfl, -⟩ := takeOldest_some htake
      have hwf := wf_putWord (s := { s with posts := before ++ after }) h.wf e.offset e.value
      refine ⟨h.toRunSound.congr rfl rfl hwf hqueue, fun off hoff => ?_⟩
      refine (settledWord_issued h.wf h.queue ho hh hposts off).trans ((h.settled off hoff).trans ?_)
      exact (postedValue_congr hoff rfl fun _ => rfl).symm
  · rename_i hbusy
    rw [if_neg hbusy]
    exact h

end

end Sys2Proof.Machine
end

section
/-! PROOFS. Memory follows the part before RUN and at every step (R163, R190 to R195): what the sequencer has written,
the C-side bus, and the commands. -/

namespace Sys2Proof.Machine

open Sys2Proof.Safety

section
variable {s t : State} {n : SlotNo} {txn : Txn}

/-! What memory holds at each stage before RUN. -/

/-- The DISPOSITION word of slot `n` stands in memory. -/
def DispositionWritten (s : State) (n : SlotNo) : Prop :=
  s.mem.readWord (s.addr (slotOffset n 2)) = dispositionWord (s.slot n)

theorem memoryFollows_filling (hst : s.stage = .filling n) : MemoryFollows s ↔ ∀ m, m < n → DispositionWritten s m := by
  unfold MemoryFollows
  rw [hst]
  rfl

theorem memoryFollows_adopting (hst : s.stage = .adopting n) :
    MemoryFollows s ↔ ∀ m, m < n → DispositionWritten s m := by
  unfold MemoryFollows
  rw [hst]
  rfl

theorem memoryFollows_closing (hst : s.stage = .closing) : MemoryFollows s ↔ ∀ m, DispositionWritten s m := by
  unfold MemoryFollows
  rw [hst]
  rfl

theorem memoryFollows_entering (hst : s.stage = .entering) :
    MemoryFollows s ↔ ∀ off ∈ postedOffsets, s.mem.readWord (s.addr off) = entryWord s off := by
  unfold MemoryFollows
  rw [hst]

theorem memoryFollows_opening (hst : s.stage = .opening) : MemoryFollows s := by
  unfold MemoryFollows
  rw [hst]
  trivial

theorem memoryFollows_settings {k : Fin 72} (hst : s.stage = .settings k) : MemoryFollows s := by
  unfold MemoryFollows
  rw [hst]
  trivial

theorem entryWord_congr {off : Offset} (hoff : off ∈ postedOffsets) (hpart : t.postedPart = s.postedPart)
    (hslot : ∀ n, dispositionWord (t.slot n) = dispositionWord (s.slot n)) : entryWord t off = entryWord s off := by
  obtain ⟨-, -, -, hrequested, -, hcause, -, hlatched, -⟩ := postedPart_eq_iff.1 hpart
  unfold entryWord
  rw [postedValue_congr hoff hpart hslot, hlatched, hrequested, hcause]

/-- With the slots up to `n` written, memory follows at the stage after it (R191 to R193). -/
theorem memoryFollows_after {next : SlotNo → Stage} (hnext : next = .filling ∨ next = .adopting)
    (hst : s.stage = if n = 127 then .closing else next (n + 1)) (h : ∀ m, m ≤ n → DispositionWritten s m) :
    MemoryFollows s := by
  by_cases hn : n = 127
  · rw [if_pos hn] at hst
    exact (memoryFollows_closing hst).2 fun m => h m (hn ▸ Fin.le_last m)
  · rw [if_neg hn] at hst
    have hval : (n + 1).val = n.val + 1 := Fin.val_add_one_of_lt (Fin.lt_last_iff_ne_last.2 hn)
    have hbelow : ∀ m, m < n + 1 → DispositionWritten s m := fun m hm => h m (by
      rw [Fin.lt_def, hval] at hm
      exact Nat.le_of_lt_succ hm)
    rcases hnext with rfl | rfl
    · exact (memoryFollows_filling hst).2 hbelow
    · exact (memoryFollows_adopting hst).2 hbelow

/-! Changes before RUN. -/

/-- Everything that memory is to follow before RUN, and the sequencer's place. -/
def State.startPart (s : State) :=
  (s.postedPart, s.slots, s.answerList, s.straps, s.held, s.posts, s.owed, s.stage)

theorem startPart_eq_iff : t.startPart = s.startPart ↔ t.postedPart = s.postedPart ∧ t.slots = s.slots ∧
    t.answerList = s.answerList ∧ t.straps = s.straps ∧ t.held = s.held ∧ t.posts = s.posts ∧ t.owed = s.owed ∧
    t.stage = s.stage := by
  simp only [State.startPart, Prod.mk.injEq]

/-- Before RUN, a change of nothing that memory is to follow, and of no word of the window in memory. -/
theorem MemoryKept.beforeRun (h : MemoryKept s) (hr : s.seq ≠ .run) (hpart : t.startPart = s.startPart)
    (hwf : t.mem.wf = true) (hread : ∀ off, t.mem.readWord (s.addr off) = s.mem.readWord (s.addr off)) :
    MemoryKept t := by
  obtain ⟨hposted, hslots, hlist, hstraps, hheld, hposts, howed, hstage⟩ := startPart_eq_iff.1 hpart
  obtain ⟨hpositions, hready, -, -, hnight, -, hseq, -⟩ := postedPart_eq_iff.1 hposted
  have hslot : ∀ m, t.slot m = s.slot m := fun m => by rw [State.slot, hslots]; rfl
  have hread' : ∀ off, t.mem.readWord (t.addr off) = s.mem.readWord (s.addr off) := fun off => by
    rw [addr_congr hstraps, hread]
  refine ⟨hwf, h.queue.of_posts hposts, ?_, ?_⟩
  · have hagrees := h.agrees
    simp only [StartUpAgrees, hslot, State.pos, hseq, hstage, hready, hpositions, hposts, howed, hheld, hnight,
      hlist] at hagrees ⊢
    exact hagrees
  · have hwritten : ∀ m, DispositionWritten s m → DispositionWritten t m := fun m hm =>
      (hread' _).trans (hm.trans (congrArg _ (hslot m).symm))
    cases hst : s.stage with
    | running => exact absurd (h.agrees.1.2 hst) hr
    | entering =>
      refine (memoryFollows_entering (hstage.trans hst)).2 fun off hoff => ?_
      rw [hread', entryWord_congr hoff hposted fun m => congrArg dispositionWord (hslot m)]
      exact (memoryFollows_entering hst).1 h.follows off hoff
    | closing =>
      exact (memoryFollows_closing (hstage.trans hst)).2 fun m => hwritten m ((memoryFollows_closing hst).1 h.follows m)
    | filling n =>
      exact (memoryFollows_filling (hstage.trans hst)).2 fun m hm =>
        hwritten m ((memoryFollows_filling hst).1 h.follows m hm)
    | adopting n =>
      exact (memoryFollows_adopting (hstage.trans hst)).2 fun m hm =>
        hwritten m ((memoryFollows_adopting hst).1 h.follows m hm)
    | opening => exact memoryFollows_opening (hstage.trans hst)
    | settings k => exact memoryFollows_settings (hstage.trans hst)

/-- A change that memory need not follow, in RUN or before it. -/
theorem MemoryKept.unseen (h : MemoryKept s) (hpart : t.startPart = s.startPart) (hmem : t.mem = s.mem) :
    MemoryKept t := by
  by_cases hr : s.seq = .run
  · obtain ⟨hposted, hslots, -, hstraps, hheld, hposts, howed, hstage⟩ := startPart_eq_iff.1 hpart
    obtain ⟨-, -, -, -, -, -, hseq, -⟩ := postedPart_eq_iff.1 hposted
    refine ((h.inRun hr).quiet (storePart_eq_iff.2 ⟨hstraps, hheld, hposts, howed, hmem, hseq, hstage⟩)
      fun off hoff => postedValue_congr hoff hposted fun m => ?_).kept
    rw [State.slot, hslots]
    rfl
  · exact h.beforeRun hr hpart (hmem ▸ h.wf) fun off => by rw [hmem]

/-- The parts of the state that every access of the sequencer leaves (R190 to R195). -/
def State.idlePart (s : State) := (s.seq, s.readyList, s.positions, s.posts, s.owed, s.held, s.nightPending)

/-- An access of the sequencer that leaves these parts keeps what holds before RUN, when it does so for the slots and
for memory. -/
theorem MemoryKept.access (h : MemoryKept s) (hr : s.seq ≠ .run) (hidle : t.idlePart = s.idlePart)
    (hst : t.stage ≠ .running) (hwf : t.mem.wf = true) (hslots : StageFits t) (hfollows : MemoryFollows t) :
    MemoryKept t := by
  obtain ⟨hseq, hready, hpositions, hposts, howed, hheld, hnight⟩ :
      t.seq = s.seq ∧ t.readyList = s.readyList ∧ t.positions = s.positions ∧ t.posts = s.posts ∧ t.owed = s.owed ∧
        t.held = s.held ∧ t.nightPending = s.nightPending := by
    simpa only [State.idlePart, Prod.mk.injEq] using hidle
  refine ⟨hwf, h.queue.of_posts hposts, ⟨?_, ?_, ?_⟩, hfollows⟩
  · exact iff_of_false (hseq ▸ hr) hst
  · intro _
    have hidle' := h.agrees.2.1 hr
    simp only [State.pos, hready, hpositions, hposts, howed, hheld, hnight] at hidle' ⊢
    exact hidle'
  · obtain ⟨hearly, hadopting⟩ := hslots
    cases hstage : t.stage <;> simp_all

/-- What holds of the slots at each stage before RUN. -/
theorem MemoryKept.stageFits (h : MemoryKept s) : StageFits s := by
  obtain ⟨-, -, hstage⟩ := h.agrees
  constructor
  · rintro (hst | ⟨_, hst⟩ | ⟨_, hst⟩) <;> rw [hst] at hstage <;> exact hstage
  · intro n hst
    rw [hst] at hstage
    exact hstage

theorem MemoryKept.seq_of_stage (h : MemoryKept s) (hst : s.stage ≠ .running) : s.seq ≠ .run :=
  fun hr => hst (h.agrees.1.1 hr)

/-! The C-side bus. -/

/-- A transaction outside the window writes no window word and takes nothing (R129). -/
theorem MemoryKept.outside (h : MemoryKept s) (hh : s.held = none)
    (hout : windowOffset s.straps.wbase txn.addr = none) : MemoryKept (s.complete txn s.owed (outsideAccess txn)) := by
  have hspares : ∀ off, (outsideAccess txn).Spares (s.addr off) := outsideAccess_spares hout
  by_cases hr : s.seq = .run
  · exact FollowsInRun.complete ((h.inRun hr).holding hh fun off _ => hspares off) hh
  · obtain ⟨-, -, -, howed, -⟩ := h.agrees.2.1 hr
    have hkind : ∀ addr data, outsideAccess txn ≠ .restart addr data := by
      intro addr data
      unfold outsideAccess
      split <;> simp
    obtain ⟨m, r, heq, hwf, hread⟩ := perform_spec h.wf hkind
    have hmade : s.complete txn s.owed (outsideAccess txn) = { s with mem := m, reply := r } := by
      simp only [State.complete, howed, List.isEmpty_nil, Bool.true_or, if_true, heq]
    rw [hmade]
    exact h.beforeRun hr rfl hwf fun off => (hread _).trans ((hspares off).over_eq _)

theorem busInvariant_memoryKept : BusInvariant MemoryKept where
  of_bus _ _ h := h.unseen rfl rfl
  outside _ _ h hh hout := h.outside hh hout
  window _ txn off h hh hr := (h.inRun hr).takeWindow hh txn off

theorem memoryKept_resetFromPin (hwf : s.mem.wf = true) (cause : ResetCause) {phase : Seq} (hp : phase ≠ .run) :
    MemoryKept (s.resetFromPin cause phase) :=
  busInvariant_memoryKept.resumeBus (memoryKept_resetBlocks (by exact hwf) cause hp)

/-- Issues are owed in RUN alone (R172). -/
theorem MemoryKept.run_of_owed (h : MemoryKept s) (ho : s.owed ≠ []) : s.seq = .run := by
  by_contra hr
  obtain ⟨-, -, -, howed, -⟩ := h.agrees.2.1 hr
  exact ho howed

theorem MemoryKept.issueOwed (h : MemoryKept s) : MemoryKept s.issueOwed := by
  unfold State.issueOwed
  split
  · exact h
  · rename_i e rest ho
    have hissued := (h.inRun (h.run_of_owed (by simp [ho]))).issued ho
    dsimp only
    split
    · exact hissued.kept
    · rename_i held hh
      split
      · rename_i hends
        have hmade : rest = [] ∨ held.access = .nothing := by
          simp only [Held.ends, Bool.or_eq_true, Bool.and_eq_true, decide_eq_true_eq, List.isEmpty_iff] at hends
          exact hends.imp id And.left
        exact busInvariant_memoryKept.resumeBus (hissued.performHeld hh hmade)
      · exact (hissued.waits (held := held) hh (held.behind - 1)).kept

theorem MemoryKept.issuePost (h : MemoryKept s) : MemoryKept s.issuePost := by
  by_cases hr : s.seq = .run
  · exact (h.inRun hr).issuePost.kept
  · have hsame : s.issuePost = s := by simp [State.issuePost, hr]
    rwa [hsame]

/-! The Start-Up Sequencer (chapter 12). -/

theorem MemoryKept.openingStep (h : MemoryKept s) : MemoryKept s.openingStep := by
  unfold State.openingStep
  split
  · rename_i hst
    have hempty := h.stageFits.early (.inl hst)
    refine h.access (h.seq_of_stage (by simp [hst])) rfl (by dsimp only; split <;> simp) (wf_putWord h.wf _ _)
      ⟨fun _ => hempty, fun n _ m _ => hempty.2 m⟩ ?_
    by_cases hfill : s.seq = .fill
    · exact (memoryFollows_filling (if_pos hfill)).2 fun m hm => absurd hm (Nat.not_lt_zero m.val)
    · exact memoryFollows_settings (if_neg hfill)
  · exact h

theorem dispositionOffset_ne {m : SlotNo} (h : m ≠ n) : slotOffset m 2 ≠ slotOffset n 2 :=
  fun heq => h (slotOffset_inj (by decide) (by decide) heq).1

theorem MemoryKept.fillStep (h : MemoryKept s) : MemoryKept s.fillStep := by
  unfold State.fillStep
  split
  · rename_i n hst
    have hempty := h.stageFits.early (.inr (.inl ⟨n, hst⟩))
    refine h.access (h.seq_of_stage (by simp [hst])) rfl (by dsimp only; split <;> simp) (wf_putWord h.wf _ _)
      ⟨fun _ => hempty, fun n _ m _ => hempty.2 m⟩ (memoryFollows_after (.inl rfl) rfl fun m hm => ?_)
    rcases lt_or_eq_of_le hm with hm | rfl
    · exact (readWord_putWord_ne (dispositionOffset_ne hm.ne) _).trans ((memoryFollows_filling hst).1 h.follows m hm)
    · exact (readWord_putWord_same h.wf _ _).trans (congrArg _ (hempty.2 m).symm)
  · exact h

theorem wf_sweepSettingStep (hwf : s.mem.wf = true) : s.sweepSettingStep.mem.wf = true := by
  unfold State.sweepSettingStep
  split
  · dsimp only
    split
    · exact hwf
    · exact wf_putWord hwf _ _
  · exact hwf

theorem MemoryKept.sweepSettingStep (h : MemoryKept s) : MemoryKept s.sweepSettingStep := by
  cases hst : s.stage with
  | settings k =>
    have hempty := h.stageFits.early (.inr (.inr ⟨k, hst⟩))
    have hnext : s.sweepSettingStep.stage = if k = 71 then .adopting 0 else .settings (k + 1) := by
      unfold State.sweepSettingStep
      rw [hst]
      dsimp only
      split <;> rfl
    have hwf := wf_sweepSettingStep h.wf
    obtain ⟨m, mode, next, v, heq⟩ := sweepSettingStep_eq hst
    rw [heq] at hnext hwf ⊢
    refine h.access (h.seq_of_stage (by simp [hst])) rfl (by rw [hnext]; split <;> simp) hwf
      ⟨fun _ => hempty, fun n _ m _ => hempty.2 m⟩ ?_
    by_cases hk : k = 71
    · exact (memoryFollows_adopting (hnext.trans (if_pos hk))).2 fun m hm => absurd hm (Nat.not_lt_zero m.val)
    · exact memoryFollows_settings (hnext.trans (if_neg hk))
  | _ => rw [State.sweepSettingStep, hst]; exact h

/-- An adoption comes to its end with the slot judged, and memory as it was found (R193). -/
theorem adoptStep_judged (hst : s.stage = .adopting n) : ∃ judged : State,
    s.adoptStep = judged.endAdoption n (s.mem.readWord (s.addr (slotOffset n 2))) ∧
      judged.slot n = s.sweptSlot n ∧ judged.mem = s.mem ∧ judged.straps = s.straps := by
  obtain ⟨la, fa, ov, heq⟩ := adoptStep_eq_endAdoption hst
  exact ⟨_, heq, State.slot_setSlot_same .., rfl, rfl⟩

/-- The adoption of slot `n` leaves its record's word in memory, and every other word (R193). -/
theorem adoptStep_store (hst : s.stage = .adopting n) (hwf : s.mem.wf = true) :
    s.adoptStep.mem.wf = true ∧ s.adoptStep.mem.readWord (s.addr (slotOffset n 2)) = dispositionWord (s.sweptSlot n) ∧
      ∀ off, off ≠ slotOffset n 2 → s.adoptStep.mem.readWord (s.addr off) = s.mem.readWord (s.addr off) := by
  obtain ⟨judged, heq, hslot, hmem, hstraps⟩ := adoptStep_judged hst
  generalize hlisted : (if (judged.slot n).disp.isWaiting then judged.join n else judged) = listed
  obtain ⟨hslot', hmem', hstraps'⟩ :
      listed.slot n = s.sweptSlot n ∧ listed.mem = s.mem ∧ listed.straps = s.straps := by
    rw [← hlisted]
    split <;> exact ⟨hslot, hmem, hstraps⟩
  have haddr := addr_congr hstraps'
  rw [heq]
  unfold State.endAdoption
  dsimp only
  rw [hlisted, hslot']
  split
  · rename_i hsame
    exact ⟨hmem' ▸ hwf, by rw [hmem', hsame], fun off _ => by rw [hmem']⟩
  · refine ⟨wf_putWord (hmem' ▸ hwf) _ _, ?_, fun off hoff => ?_⟩
    · rw [← haddr]
      exact readWord_putWord_same (hmem' ▸ hwf) _ _
    · rw [← haddr, ← hmem']
      exact readWord_putWord_ne hoff _

theorem MemoryKept.adoptStep (h : MemoryKept s) : MemoryKept s.adoptStep := by
  cases hst : s.stage with
  | adopting n =>
    obtain ⟨hwf, hword, hothers⟩ := adoptStep_store hst h.wf
    obtain ⟨la, fa, ov, m, u, heq⟩ := adoptStep_eq hst
    rw [heq] at hwf hword hothers ⊢
    refine h.access (h.seq_of_stage (by simp [hst])) rfl (adoptionNext_ne_running n) hwf
      ⟨fun hk => ?_, fun a ha b hb => ?_⟩ (memoryFollows_after (.inr rfl) rfl fun a ha => ?_)
    · dsimp only [adoptionNext] at hk
      split at hk <;> simp at hk
    · have hlt := adoptionNext_adopting ha hb
      refine (State.slot_setSlot_ne s (s.sweptSlot n) hlt.ne).trans ?_
      exact h.stageFits.adopting n hst b hlt.le
    · rcases lt_or_eq_of_le ha with ha | rfl
      · refine (hothers _ (dispositionOffset_ne ha.ne)).trans (((memoryFollows_adopting hst).1 h.follows a ha).trans ?_)
        exact congrArg _ (State.slot_setSlot_ne s (s.sweptSlot n) ha.ne').symm
      · exact hword.trans (congrArg _ (State.slot_setSlot_same s a (s.sweptSlot a)).symm)
  | _ => rw [State.adoptStep, hst]; exact h

/-- Several window words written in turn. -/
def State.putWords (s : State) (words : List Post) : State := words.foldl (fun t e => t.putWord e.offset e.value) s

/-- Different words written in turn each stand in memory, and every other word is left. -/
theorem readWord_putWords {words : List Post} (hwf : s.mem.wf = true) (hn : (words.map Post.offset).Nodup) :
    (s.putWords words).mem.wf = true ∧ (∀ e ∈ words, (s.putWords words).mem.readWord (s.addr e.offset) = e.value) ∧
      ∀ off, off ∉ words.map Post.offset →
        (s.putWords words).mem.readWord (s.addr off) = s.mem.readWord (s.addr off) := by
  induction words generalizing s with
  | nil => exact ⟨hwf, by simp, fun _ _ => rfl⟩
  | cons e words ih =>
    rw [List.map_cons, List.nodup_cons] at hn
    obtain ⟨hnew, hrest⟩ := hn
    obtain ⟨hwf', hin, hout⟩ := ih (s := s.putWord e.offset e.value) (wf_putWord hwf _ _) hrest
    refine ⟨hwf', fun x hx => ?_, fun off hoff => ?_⟩
    · rcases List.mem_cons.1 hx with rfl | hx
      · exact (hout _ hnew).trans (readWord_putWord_same hwf _ _)
      · exact hin x hx
    · rw [List.map_cons, List.mem_cons, not_or] at hoff
      exact (hout off hoff.2).trans (readWord_putWord_ne hoff.1 _)

/-- The nine closing writes (R195). -/
def closingWords (s : State) : List Post :=
  (allPositions.map fun p => ⟨blockOffset p 1, statusWord Position.empty none 0⟩) ++
    [⟨0x014, faultHeadWord s.fault s.overflow⟩, ⟨0x015, faultOffsetWord s.fault⟩, ⟨0x016, faultValueWord s.fault⟩,
      ⟨0x011, causesWord (s.latched ||| causeStarted)⟩,
      ⟨0x010, modeStatusWord (modeOfService s.requested) s.requested false s.resetCause .run⟩]

theorem closingStep_putWords (hst : s.stage = .closing) :
    s.closingStep = { s.putWords (closingWords s) with stage := .entering } := by
  rw [State.closingStep, if_pos hst]
  rfl

theorem mem_closingStep (hst : s.stage = .closing) : s.closingStep.mem = (s.putWords (closingWords s)).mem := by
  rw [closingStep_putWords hst]

theorem closingWords_offsets (s : State) :
    (closingWords s).map Post.offset = [0x0C1, 0x0D1, 0x0E1, 0x0F1, 0x014, 0x015, 0x016, 0x011, 0x010] := rfl

theorem closingWords_nodup (s : State) : ((closingWords s).map Post.offset).Nodup := by
  rw [closingWords_offsets]
  decide

/-- Each closing write is of the word that entry to RUN makes of a posted word. -/
theorem closingWords_value {e : Post} (he : e ∈ closingWords s) : e.value = entryWord s e.offset := by
  simp only [closingWords, allPositions, List.map_cons, List.map_nil, List.cons_append, List.nil_append, List.mem_cons,
    List.not_mem_nil, or_false] at he
  rcases he with rfl | rfl | rfl | rfl | rfl | rfl | rfl | rfl | rfl <;> rfl

/-- A posted word is one of the nine or the DISPOSITION word of a slot (R163). -/
theorem posted_cases {off : Offset} (hoff : off ∈ postedOffsets) (s : State) :
    off ∈ (closingWords s).map Post.offset ∨ ∃ n, off = slotOffset n 2 := by
  rcases List.mem_append.1 hoff with hoff | hoff
  · rw [closingWords_offsets]
    simp only [List.mem_cons, List.not_mem_nil, or_false] at hoff ⊢
    tauto
  · obtain ⟨n, -, rfl⟩ := List.mem_map.1 hoff
    exact .inr ⟨n, rfl⟩

theorem entryWord_disposition (s : State) (n : SlotNo) : entryWord s (slotOffset n 2) = dispositionWord (s.slot n) := by
  simp only [entryWord, State.postedValue, placeOf_disposition, State.overlay]

theorem MemoryKept.closingStep (h : MemoryKept s) : MemoryKept s.closingStep := by
  by_cases hst : s.stage = .closing
  · obtain ⟨hwf, hin, hout⟩ := readWord_putWords h.wf (closingWords_nodup s)
    obtain ⟨m, heq⟩ := closingStep_eq hst
    rw [← mem_closingStep hst, heq] at hwf hin hout
    rw [heq]
    refine h.access (h.seq_of_stage (by simp [hst])) rfl (by simp) hwf
      ⟨fun hk => by simp at hk, fun n hk => by simp at hk⟩ ((memoryFollows_entering rfl).2 fun off hoff => ?_)
    refine Eq.trans ?_ (entryWord_congr (s := s) hoff rfl fun _ => rfl).symm
    by_cases hclosing : off ∈ (closingWords s).map Post.offset
    · obtain ⟨e, he, rfl⟩ := List.mem_map.1 hclosing
      exact (hin e he).trans (closingWords_value he)
    · obtain ⟨n, rfl⟩ := (posted_cases hoff s).resolve_left hclosing
      rw [entryWord_disposition]
      exact (hout _ hclosing).trans ((memoryFollows_closing hst).1 h.follows n)
  · rwa [State.closingStep, if_neg hst]

/-! Entry to RUN (R195). -/

/-- With every position at its reset values there is nothing for the arbiter to do. -/
theorem arbitrate_of_empty (hready : s.readyList = []) (hpos : ∀ p, s.pos p = Position.empty) : s.arbitrate = s := by
  have hnone : ∀ p, s.qualifying p = none := fun p => by simp [State.qualifying, State.isEngaged, hpos, Position.empty]
  rw [State.arbitrate, presentAll_stops _ (.inr hready), offerAll_of_none_qualifies _ hnone]

theorem dispositionWord_armAdopted (s : State) (sl : Slot) :
    dispositionWord (s.armAdopted sl) = dispositionWord sl := by
  unfold State.armAdopted
  split <;> rfl

/-- The state entry to RUN leaves, but for supervision, when the arbiter has nothing to do. -/
theorem enterRun_of_empty (hready : s.readyList = []) (hpos : ∀ p, s.pos p = Position.empty) :
    ∃ sv, s.enterRun = { s.entered with supervision := sv } := by
  rw [enterRun_eq, arbitrate_of_empty]
  · split
    · exact ⟨_, rfl⟩
    · exact ⟨s.supervision, rfl⟩
  · split <;> exact hready
  · intro p
    split <;> exact hpos p

/-- Every posted word reads, at entry to RUN, as the sequencer has written it. -/
theorem postedValue_entered (hready : s.readyList = []) (hpos : ∀ p, s.pos p = Position.empty)
    (hnight : s.nightPending = false) {off : Offset} (hoff : off ∈ postedOffsets) :
    s.entered.postedValue off = entryWord s off := by
  have hposted := mem_postedOffsets.1 hoff
  unfold State.postedValue State.overlay entryWord
  cases hplace : placeOf off <;> simp only [hplace, Place.isPosted, Bool.false_eq_true] at hposted
  case disposition n =>
    simp only [State.postedValue, hplace, State.overlay]
    exact (congrArg dispositionWord (mapVec_get ..)).trans (dispositionWord_armAdopted s _)
  case status p =>
    have hcurrent : s.entered.currentSlot p = none := by
      rw [State.currentSlot, show s.entered.pos p = Position.empty from hpos p]
      rfl
    have hplace : s.entered.readyPlace p = 0 := by
      rw [State.readyPlace, show s.entered.readyList = [] from hready]
      rfl
    simp only [hcurrent, hplace, show s.entered.pos p = Position.empty from hpos p]
  case modeStatus => exact congrArg (modeStatusWord _ _ · _ _) hnight
  all_goals
    simp only [State.postedValue, hplace, State.overlay]
    rfl

theorem MemoryKept.enterRun (h : MemoryKept s) (hst : s.stage = .entering) : FollowsInRun s.enterRun := by
  have hr := h.seq_of_stage (by simp [hst])
  obtain ⟨hready, hpos, hposts, howed, hheld, hnight⟩ := h.agrees.2.1 hr
  obtain ⟨sv, heq⟩ := enterRun_of_empty hready hpos
  rw [heq]
  refine ⟨⟨rfl, rfl, h.wf, h.queue.of_posts rfl⟩, fun off hoff => ?_⟩
  have hsettled : settledWord { s.entered with supervision := sv } off = s.mem.readWord (s.addr off) := by
    rw [settledWord_of_not_mem (by simp [State.entered, hposts]), heldWord_of_free (by exact hheld),
      owedWord_of_empty (by exact howed)]
    rfl
  rw [hsettled, (memoryFollows_entering hst).1 h.follows off hoff, ← postedValue_entered hready hpos hnight hoff]
  exact (postedValue_congr hoff rfl fun _ => rfl).symm

theorem MemoryKept.entryStep (h : MemoryKept s) : MemoryKept s.entryStep := by
  unfold State.entryStep
  split
  · rename_i hst
    exact busInvariant_memoryKept.resumeBus (h.enterRun hst).kept
  · exact h

/-! The commands and the step. -/

/-- Events inside the part, which leave everything before RUN (R102). -/
theorem MemoryKept.events (h : MemoryKept s) (e : EventsLead s t) (hbeside : OwesBesideHeld s t)
    (hidle : s.seq ≠ .run → t = s) : MemoryKept t := by
  by_cases hr : s.seq = .run
  · exact ((h.inRun hr).eventsLead e hbeside).kept
  · rw [hidle hr]
    exact h

theorem MemoryKept.callTick (h : MemoryKept s) (hbeside : OwesBesideHeld s s.callTick) : MemoryKept s.callTick := by
  by_cases hr : s.seq = .run
  · exact ((h.inRun hr).eventsLead (eventsLead_callTick s) hbeside).kept
  · rw [callTick_of_startUp hr]
    exact h.unseen rfl rfl

theorem MemoryKept.clkref (h : MemoryKept s) (hbeside : OwesBesideHeld s s.clkref) : MemoryKept s.clkref := by
  unfold State.clkref at hbeside ⊢
  split
  · exact h.unseen rfl rfl
  · rename_i htop
    rw [if_neg htop] at hbeside
    exact h.callTick hbeside

theorem MemoryKept.exec (h : MemoryKept s) (c : Instr) (he : exec c s = .next t) (hbeside : OwesBesideHeld s t) :
    MemoryKept t := by
  cases hb : busTxn s c with
  | some txn =>
    rw [exec_bus s c hb] at he
    rw [← Host.Outcome.next.inj he]
    have hpins : MemoryKept { s with pins := busPins s c } := h.unseen rfl rfl
    exact busInvariant_memoryKept.arrive hpins txn
  | none =>
    cases c <;> simp only [busTxn, reduceCtorEq] at hb <;> obtain rfl := Host.Outcome.next.inj he
    case powerOnReset => exact memoryKept_resetFromPin (Memory.ofCells_wf _) _ (by decide)
    case resetN => exact memoryKept_resetFromPin (by exact h.wf) _ (by decide)
    case openingWrite => exact h.openingStep
    case fill => exact h.fillStep
    case sweepSettingRead => exact h.sweepSettingStep
    case adoption => exact h.adoptStep
    case closingWrites => exact h.closingStep
    case entryToRun => exact h.entryStep
    case callTick => exact h.callTick hbeside
    case secondTick =>
      exact h.events (eventsLead_queueSecond s) hbeside fun hr => by simp [State.queueSecond, hr]
    case slotSecondTick =>
      exact h.events (eventsLead_slotSecond s) hbeside fun hr => by simp [State.slotSecond, hr]
    case presentationExpiry n =>
      exact h.events (eventsLead_presentationExpires s n) hbeside fun hr =>
        presentationExpires_of_not (slotExpires_startUp hr n _)
    case breakInOfferExpiry n =>
      exact h.events (eventsLead_offerExpires s n) hbeside fun hr => offerExpires_of_not (slotExpires_startUp hr n _)
    case holdRecallExpiry n =>
      exact h.events (eventsLead_recallExpiry s n .held) hbeside fun hr =>
        recallExpiry_of_not (slotExpires_startUp hr n _)
    case transferRecallExpiry n =>
      exact h.events (eventsLead_recallExpiry s n .extended) hbeside fun hr =>
        recallExpiry_of_not (slotExpires_startUp hr n _)
    case campRecallExpiry n =>
      exact h.events (eventsLead_recallExpiry s n .camped) hbeside fun hr =>
        recallExpiry_of_not (slotExpires_startUp hr n _)
    case wrapUpExpiry p =>
      exact h.events (eventsLead_wrapUpExpires s p) hbeside fun hr => by simp [State.wrapUpExpires, hr]
    case supervisionExpiry =>
      exact h.events (eventsLead_supervisionExpires s) hbeside fun hr => by simp [State.supervisionExpires, hr]
    case post => exact h.issuePost
    case owedIssue => exact h.issueOwed

end

/-- Settles O10: in RUN what an event changes is queued or owed, and a write that carries a posted word drops its entry;
before RUN the sequencer writes each word as RUN will have it. -/
theorem stepKeepsMemoryFollowingThePart : Obligations.StepKeepsMemoryFollowingThePart := by
  intro s t hwf hqueue hagrees hfollows hstep hbeside
  have h : MemoryKept s := ⟨hwf, queueFits_iff.2 hqueue, hagrees, hfollows⟩
  suffices hend : MemoryKept t from ⟨hend.wf, queueFits_iff.1 hend.queue, hend.agrees, hend.follows⟩
  unfold step at hstep
  split at hstep
  · obtain rfl := Host.Outcome.next.inj hstep
    exact h.clkref hbeside
  · rename_i c rest _
    have hrest : MemoryKept { s with pending := rest } := h.unseen rfl rfl
    exact hrest.exec c hstep hbeside

end Sys2Proof.Machine
end

section
/-! PROOFS. The lock state of locked sequences (R168, R172): what each kind of transaction makes of it. -/

namespace Sys2Proof.Machine

open Sys2Proof.Safety

section
variable {s : State} {txn : Txn} {off : Offset} {l : Lock}

/-! The lock state by the transaction (R168). -/

/-- A read with LOCK begins a sequence at its word. -/
theorem lockAfter_begun (lock : Option Lock) (hwrite : txn.write = false) (hlock : txn.lock = true) :
    lockAfter lock txn off = some ⟨requesterOf txn, off⟩ := by
  simp [lockAfter, hwrite, hlock]

/-- The write with LOCK by the requester of the sequence to its word ends it. -/
theorem lockAfter_ended (hwrite : txn.write = true) (hlock : txn.lock = true) (hl : l = ⟨requesterOf txn, off⟩) :
    lockAfter (some l) txn off = none := by
  simp [lockAfter, hwrite, hlock, hl]

/-- Any other write with LOCK leaves it. -/
theorem lockAfter_left (hwrite : txn.write = true) (hlock : txn.lock = true) (hl : l ≠ ⟨requesterOf txn, off⟩) :
    lockAfter (some l) txn off = some l := by
  obtain ⟨requester, word⟩ := l
  simp only [ne_eq, Lock.mk.injEq] at hl
  simp [lockAfter, hwrite, hlock, hl]

/-- A transaction without LOCK that reaches another word abandons it. -/
theorem lockAfter_abandoned (hlock : txn.lock = false) (hl : l.offset ≠ off) : lockAfter (some l) txn off = none := by
  simp [lockAfter, hlock, hl]

/-- One without LOCK that reaches its word leaves it. -/
theorem lockAfter_kept (hlock : txn.lock = false) (hl : l.offset = off) : lockAfter (some l) txn off = some l := by
  simp [lockAfter, hlock, hl]

/-- With no sequence open, a read with LOCK alone begins one. -/
theorem lockAfter_none (h : txn.write = true ∨ txn.lock = false) : lockAfter none txn off = none := by
  rcases h with h | h <;> simp [lockAfter, h]

/-! The lock state that a window transaction leaves. -/

/-- RUN goes on with the lock state `lock`, or RUN is left and the lock state is none (R172). -/
def LockIs (lock : Option Lock) (t : State) : Prop :=
  (t.seq = .run ∧ t.lock = lock) ∨ (t.seq ≠ .run ∧ t.lock = none)

/-- A transaction's own access leaves the lock state, or begins a reset (R139). -/
theorem lockIs_complete (hrun : s.seq = .run) (txn : Txn) (owed : List Post) (a : Access) :
    LockIs s.lock (s.complete txn owed a) := by
  unfold State.complete
  split
  · cases a with
    | restart addr data => exact .inr ⟨by simp [State.perform, State.resetBlocks], rfl⟩
    | _ => exact .inl ⟨hrun, rfl⟩
  · exact .inl ⟨hrun, rfl⟩

theorem lockIs_finishWrite {e : WriteEffect} (hrun : e.state.seq = .run) (before : State) (txn : Txn)
    (lock : Option Lock) : LockIs lock (State.finishWrite before txn lock e) := by
  unfold State.finishWrite
  dsimp only
  generalize howners : ({ e.state with lock := lock } : State) = owners
  have hseq : owners.seq = .run := by rw [← howners]; exact hrun
  have hlock : owners.lock = lock := by rw [← howners]
  rw [← hlock]
  split
  · rename_i w _
    obtain ⟨p, o, heq⟩ := givePosts_eq (s := owners.dropPost w) (keptPosts_nodup before owners w)
    have hposted : owners.postingExcept before w = { owners with posts := p, owed := owners.owed ++ o } := heq
    rw [hposted]
    exact lockIs_complete (s := { owners with posts := p, owed := owners.owed ++ o }) hseq _ _ _
  · obtain ⟨p, o, heq⟩ := givePosts_eq (s := owners) (changedPosts_nodup before owners)
    rw [State.posting, heq]
    exact lockIs_complete (s := { owners with posts := p, owed := owners.owed ++ o }) hseq _ _ _

/-- A window transaction taken in RUN leaves the lock state of R168, and no owner's part in it another. -/
theorem lockIs_takeWindow (hrun : s.seq = .run) (txn : Txn) (off : Offset) :
    LockIs (lockAfter s.lock txn (s.reach off).offset) (s.takeWindow txn off) := by
  unfold State.takeWindow
  dsimp only
  split
  · obtain ⟨-, -, -, -, -, hseq, -⟩ := storePart_eq_iff.1 (storePart_writeEffect s txn (s.reach off))
    exact lockIs_finishWrite (hseq.trans hrun) _ _ _
  · exact lockIs_complete (s := { s with lock := lockAfter s.lock txn (s.reach off).offset }) hrun _ _ _

end

/-- Settles O55: the transaction is taken at once, and R168 gives the lock state by its kind, the lock state before it
and the word it reaches. -/
theorem lockStateFollowsEachTransaction : Obligations.LockStateFollowsEachTransaction := by
  intro c s t txn off hs hb hoff he word r
  have hend : LockIs (lockAfter s.lock txn word) t := by
    rw [exec_bus s c hb, Host.Outcome.next.injEq] at he
    have hpins : Serving { s with pins := busPins s c } := hs
    rw [← he, arrive_serving hpins txn off (windowAddr_of_windowOffset hoff).symm]
    exact lockIs_takeWindow (s := { s with pins := busPins s c }) hs.1 txn off
  rcases hend with ⟨hrun, hlock⟩ | ⟨hleft, hnone⟩
  · refine ⟨fun hleft => absurd hrun hleft, fun _ => ?_⟩
    rw [hlock]
    refine ⟨lockAfter_begun s.lock, fun l hl => ?_, fun hfree => ?_⟩
    · rw [hl]
      exact ⟨lockAfter_ended, lockAfter_left, lockAfter_abandoned, lockAfter_kept⟩
    · rw [hfree]
      exact lockAfter_none
  · exact ⟨fun _ => hnone, fun hrun => absurd hrun hleft⟩

end Sys2Proof.Machine
end

section
/-! PROOFS. The fault record and FAULT's latch (R186): what the Slot, Position and Mode owners and the arbiter leave of
them. -/

namespace Sys2Proof.Machine

/-- The fault record, its overflow count, and whether FAULT is latched. -/
def State.faultPart (s : State) := (s.fault, s.overflow, s.latched[6])

/-- A cause other than FAULT latches. -/
theorem faultPart_latch (s : State) {cause : BitVec 8} (hcause : cause[6] = false) :
    (s.latch cause).faultPart = s.faultPart := by
  simp [State.faultPart, State.latch, hcause]

/-- What leaves the record at every turn leaves it at all turns of a list. -/
theorem faultPart_foldl {α : Type} {f : State → α → State} (hf : ∀ u a, (f u a).faultPart = u.faultPart) (l : List α)
    (s : State) : (l.foldl f s).faultPart = s.faultPart := by
  induction l generalizing s with
  | nil => rfl
  | cons a l ih => exact (ih (f s a)).trans (hf s a)

/-! Moves of one record. -/

@[simp] theorem faultPart_setSlot (s : State) (n : SlotNo) (v : Slot) : (s.setSlot n v).faultPart = s.faultPart := rfl
@[simp] theorem faultPart_setPos (s : State) (p : PosNo) (v : Position) : (s.setPos p v).faultPart = s.faultPart := rfl
@[simp] theorem faultPart_freeSlot (s : State) (n : SlotNo) : (s.freeSlot n).faultPart = s.faultPart := rfl
@[simp] theorem faultPart_abandonWaiting (s : State) (n : SlotNo) : (s.abandonWaiting n).faultPart = s.faultPart := rfl
@[simp] theorem faultPart_becomeReady (s : State) (p : PosNo) : (s.becomeReady p).faultPart = s.faultPart := rfl
@[simp] theorem faultPart_becomeClosed (s : State) (p : PosNo) : (s.becomeClosed p).faultPart = s.faultPart := rfl
@[simp] theorem faultPart_becomeWrapup (s : State) (p : PosNo) : (s.becomeWrapup p).faultPart = s.faultPart := rfl

@[simp] theorem faultPart_recallSlot (s : State) (n : SlotNo) : (s.recallSlot n).faultPart = s.faultPart :=
  faultPart_latch s (cause := causeRecall) rfl

@[simp] theorem faultPart_enterNight (s : State) : s.enterNight.faultPart = s.faultPart :=
  faultPart_latch s (cause := causeMode) rfl

@[simp] theorem faultPart_enterDay (s : State) : s.enterDay.faultPart = s.faultPart :=
  faultPart_latch s (cause := causeMode) rfl

@[simp] theorem faultPart_withdraw (s : State) (p : PosNo) : (s.withdraw p).faultPart = s.faultPart := by
  unfold State.withdraw
  split <;> rfl

@[simp] theorem faultPart_releasePresenter (s : State) (p : PosNo) :
    (s.releasePresenter p).faultPart = s.faultPart := by
  unfold State.releasePresenter
  split <;> rfl

@[simp] theorem faultPart_pushTalking (s : State) (p : PosNo) : (s.pushTalking p).faultPart = s.faultPart := by
  unfold State.pushTalking
  split <;> rfl

@[simp] theorem faultPart_retest (s : State) (p : PosNo) : (s.retest p).faultPart = s.faultPart := by
  unfold State.retest
  split
  · rfl
  · split
    · rfl
    · exact faultPart_withdraw s p

@[simp] theorem faultPart_drained (s : State) : s.drained.faultPart = s.faultPart := by
  unfold State.drained
  split
  · exact faultPart_enterNight s
  · rfl

@[simp] theorem faultPart_leaveCall (s : State) (p : PosNo) (byHold : Bool) :
    (s.leaveCall p byHold).faultPart = s.faultPart := by
  unfold State.leaveCall
  split
  · simp [State.popStack]
  · unfold State.leaveEngaged
    dsimp only
    split
    · simp
    · split <;> simp

/-! The Presentation Arbiter (R83 to R86). -/

theorem faultPart_presentAll (k : Nat) (s : State) : (State.presentAll k s).faultPart = s.faultPart := by
  induction k generalizing s with
  | zero => rfl
  | succ k ih =>
    unfold State.presentAll
    split
    · exact ih _
    · rfl

theorem faultPart_offerAll (k : Nat) (s : State) : (State.offerAll k s).faultPart = s.faultPart := by
  induction k generalizing s with
  | zero => rfl
  | succ k ih =>
    unfold State.offerAll
    split
    · split
      · split
        · exact ih _
        · rfl
      · rfl
    · rfl

@[simp] theorem faultPart_arbitrate (s : State) : s.arbitrate.faultPart = s.faultPart :=
  (faultPart_offerAll _ _).trans (faultPart_presentAll _ s)

@[simp] theorem faultPart_arbitrateAfter (s : State) (p : PosNo) (old : Position) :
    (s.arbitrateAfter p old).faultPart = s.faultPart := by
  unfold State.arbitrateAfter
  split
  · exact faultPart_arbitrate s
  · rfl

/-! The Mode Unit (R116 to R125). -/

theorem faultPart_nightClose (s : State) (p : PosNo) : (s.nightClose p).faultPart = s.faultPart := by
  unfold State.nightClose
  split <;> simp

theorem faultPart_nightRequest (s : State) : s.nightRequest.faultPart = s.faultPart := by
  have hclosed := faultPart_foldl faultPart_nightClose allPositions s
  unfold State.nightRequest
  dsimp only
  split
  · exact (faultPart_enterNight _).trans hclosed
  · exact hclosed

theorem faultPart_takeMode (s : State) (v : Service) : (s.takeMode v).faultPart = s.faultPart := by
  unfold State.takeMode
  dsimp only
  split
  · split
    · rfl
    · exact faultPart_nightRequest _
  · split
    · exact faultPart_arbitrate _
    · rfl
  · exact (faultPart_arbitrate _).trans (faultPart_enterDay _)
  · rfl
  · rfl

theorem faultPart_takeHeartbeat (s : State) : s.takeHeartbeat.faultPart = s.faultPart := by
  unfold State.takeHeartbeat
  split
  · rfl
  · rfl
  · split
    · exact (faultPart_arbitrate _).trans (faultPart_enterDay s)
    · exact (faultPart_nightRequest _).trans (faultPart_enterDay s)

theorem faultPart_lapsePosition (s : State) (p : PosNo) : (s.lapsePosition p).faultPart = s.faultPart := by
  unfold State.lapsePosition
  split <;> simp

theorem faultPart_lapse (s : State) : s.lapse.faultPart = s.faultPart :=
  (faultPart_latch _ rfl).trans (faultPart_foldl faultPart_lapsePosition allPositions _)

end Sys2Proof.Machine
end

section
/-! PROOFS. Line events, actions, CONTROL commands, ticks and expiries leave the fault record and FAULT's latch. -/

namespace Sys2Proof.Machine

/-! Line events (R15 to R28). -/

theorem faultPart_abandonEvent (s : State) (n : SlotNo) : (s.abandonEvent n).state.faultPart = s.faultPart := by
  unfold State.abandonEvent
  cases (s.slot n).disp with
  | presented =>
    dsimp only [State.abandonPresented]
    split <;> simp
  | talking =>
    dsimp only [State.abandonTalking]
    split <;> simp
  | split =>
    dsimp only [State.abandonSplit]
    split <;> simp
  | _ => rfl

theorem faultPart_offerEvent (s : State) (n : SlotNo) (g : GroupNo) :
    (s.offerEvent n g).state.faultPart = s.faultPart := by
  unfold State.offerEvent
  split
  · split
    · rfl
    · exact (faultPart_arbitrate _).trans (faultPart_latch _ rfl)
  · rfl

theorem faultPart_lineEvent (s : State) (n : SlotNo) (code : BitVec 8) (g : GroupNo) :
    (s.lineEvent n code g).state.faultPart = s.faultPart := by
  unfold State.lineEvent
  split
  · exact faultPart_offerEvent s n g
  · exact faultPart_abandonEvent s n
  · unfold State.extAnswerEvent
    split <;> rfl
  · unfold State.extBusyEvent
    split <;> rfl
  · unfold State.extFreeEvent
    split <;> rfl
  · unfold State.extFailEvent
    split <;> simp
  · rfl

/-! Actions (R30 to R42). -/

theorem faultPart_endElsewhere (s : State) (n : SlotNo) (p : PosNo) :
    (s.endElsewhere n p).faultPart = s.faultPart := by
  unfold State.endElsewhere
  split
  · split
    · rfl
    · exact faultPart_releasePresenter s _
  · rfl

theorem faultPart_clearForAnswer (s : State) (n : SlotNo) (p : PosNo) :
    (s.clearForAnswer n p).faultPart = s.faultPart := by
  unfold State.clearForAnswer
  split <;> simp [faultPart_endElsewhere]

theorem faultPart_seated (s : State) (n : SlotNo) (p : PosNo) (v : Slot) (c : Class) (al : List Listed)
    (ct : Vector Counters 32) : (s.seated n p v c al ct).faultPart = s.faultPart := rfl

theorem faultPart_answerTaken (s : State) (n : SlotNo) (p : PosNo) : (s.answerTaken n p).faultPart = s.faultPart := by
  obtain ⟨counters, heq⟩ := answerTaken_eq s n p
  rw [heq, faultPart_arbitrate, faultPart_retest, faultPart_seated, faultPart_pushTalking, faultPart_clearForAnswer]

theorem faultPart_swapTaken (s : State) (n : SlotNo) (p : PosNo) (top : StackEntry) (rest : List StackEntry) :
    (s.swapTaken n p top rest).faultPart = s.faultPart :=
  (faultPart_arbitrate _).trans (faultPart_retest _ p)

theorem faultPart_answerAction (s : State) (n : SlotNo) (p : PosNo) :
    (s.answerAction n p).state.faultPart = s.faultPart := by
  unfold State.answerAction
  split
  · split
    · rfl
    · split
      · rfl
      · exact faultPart_answerTaken s n p
  · rfl

theorem faultPart_holdAction (s : State) (n : SlotNo) (p : PosNo) :
    (s.holdAction n p).state.faultPart = s.faultPart := by
  unfold State.holdAction
  split
  · rfl
  · simp [State.holdTaken]

theorem faultPart_swapAction (s : State) (n : SlotNo) (p : PosNo) :
    (s.swapAction n p).state.faultPart = s.faultPart := by
  unfold State.swapAction
  split
  · rfl
  · split
    · rfl
    · exact faultPart_swapTaken s n p _ _

theorem faultPart_extendAction (s : State) (n : SlotNo) (p : PosNo) :
    (s.extendAction n p).state.faultPart = s.faultPart := by
  unfold State.extendAction
  split
  · rfl
  · simp [State.extendTaken]

theorem faultPart_releaseAction (s : State) (n : SlotNo) (p : PosNo) :
    (s.releaseAction n p).state.faultPart = s.faultPart := by
  unfold State.releaseAction
  split
  · rfl
  · split
    · rfl
    · simp [State.releaseTaken]

theorem faultPart_actionEvent (s : State) (n : SlotNo) (code field : BitVec 8) :
    (s.actionEvent n code field).state.faultPart = s.faultPart := by
  unfold State.actionEvent
  split
  next => rfl
  next action _ =>
    split
    next => rfl
    next p _ =>
      cases action with
      | answer => exact faultPart_answerAction s n p
      | hold => exact faultPart_holdAction s n p
      | swap => exact faultPart_swapAction s n p
      | extend => exact faultPart_extendAction s n p
      | release => exact faultPart_releaseAction s n p

/-! CONTROL commands (R77 to R81). -/

theorem faultPart_openTaken (s : State) (p : PosNo) : (s.openTaken p).faultPart = s.faultPart := by
  unfold State.openTaken
  split <;> simp

theorem faultPart_closeTaken (s : State) (p : PosNo) : (s.closeTaken p).faultPart = s.faultPart := by
  unfold State.closeTaken
  split <;> simp

theorem faultPart_controlEvent (s : State) (p : PosNo) (code : BitVec 8) :
    (s.controlEvent p code).state.faultPart = s.faultPart := by
  unfold State.controlEvent
  split
  · split
    · split
      · rfl
      · exact faultPart_openTaken s p
    · rfl
  · split
    · exact faultPart_closeTaken s p
    · rfl
  · rfl

/-! Posts, ticks and expiries (chapters 5 and 9). -/

@[simp] theorem faultPart_posting (s before : State) : (s.posting before).faultPart = s.faultPart := by
  obtain ⟨posts, owed, heq, -⟩ := givePosts_spec s (changedPosts before s) (changedPosts_nodup before s)
  rw [State.posting, heq]
  rfl

theorem faultPart_postingExcept (s before : State) (off : Offset) :
    (s.postingExcept before off).faultPart = s.faultPart := by
  obtain ⟨posts, owed, heq, -⟩ := givePosts_spec (s.dropPost off) _ (keptPosts_nodup before s off)
  rw [State.postingExcept, ← keptPosts, heq]
  rfl

/-- A miss latches MISS and, where it closes the position, AUTOCLOSE (R90). -/
theorem faultPart_missAt (s : State) (p : PosNo) : (s.missAt p).faultPart = s.faultPart := by
  have hmissed := (faultPart_latch ((s.withdraw p).setPos p { (s.withdraw p).pos p with
    misses := satInc ((s.withdraw p).pos p).misses }) (cause := causeMiss) rfl).trans (faultPart_withdraw s p)
  unfold State.missAt
  dsimp only
  split
  · exact (faultPart_latch _ rfl).trans hmissed
  · exact hmissed

theorem faultPart_presentationExpires (s : State) (n : SlotNo) : (s.presentationExpires n).faultPart = s.faultPart := by
  unfold State.presentationExpires
  split
  · split <;> simp [faultPart_missAt]
  · rfl

theorem faultPart_offerExpires (s : State) (n : SlotNo) : (s.offerExpires n).faultPart = s.faultPart := by
  unfold State.offerExpires
  split
  · split <;> simp
  · rfl

theorem faultPart_recallExpiry (s : State) (n : SlotNo) (d : Disp) : (s.recallExpiry n d).faultPart = s.faultPart := by
  unfold State.recallExpiry
  split <;> simp

theorem faultPart_wrapUpExpires (s : State) (p : PosNo) : (s.wrapUpExpires p).faultPart = s.faultPart := by
  unfold State.wrapUpExpires
  split <;> simp

theorem faultPart_supervisionExpires (s : State) : s.supervisionExpires.faultPart = s.faultPart := by
  unfold State.supervisionExpires
  split <;> simp [faultPart_lapse]

theorem faultPart_queueSecond (s : State) : s.queueSecond.faultPart = s.faultPart := by
  unfold State.queueSecond
  split
  · obtain ⟨slots, heq⟩ := ageListed_eq { s with secondAtQueue := false }
    rw [faultPart_posting, faultPart_arbitrate, heq]
    rfl
  · rfl

theorem faultPart_slotSecond (s : State) : s.slotSecond.faultPart = s.faultPart := by
  unfold State.slotSecond
  split <;> rfl

theorem faultPart_slotDue (s : State) (n : SlotNo) : (s.slotDue n).faultPart = s.faultPart := by
  unfold State.slotDue
  split
  · rw [faultPart_offerExpires, faultPart_presentationExpires]
  · exact faultPart_recallExpiry s n _
  · exact faultPart_recallExpiry s n _
  · exact faultPart_recallExpiry s n _
  · rfl

theorem faultPart_tick (s : State) : s.tick.faultPart = s.faultPart := rfl

theorem faultPart_callTick (s : State) : s.callTick.faultPart = s.faultPart := by
  rw [State.callTick, faultPart_tick, State.takeDue, faultPart_slotSecond, faultPart_queueSecond,
    faultPart_supervisionExpires, faultPart_foldl faultPart_wrapUpExpires, faultPart_foldl faultPart_slotDue]

theorem faultPart_clkref (s : State) : s.clkref.faultPart = s.faultPart := by
  unfold State.clkref
  split
  · rfl
  · exact faultPart_callTick s

theorem faultPart_issuePost (s : State) : s.issuePost.faultPart = s.faultPart := by
  unfold State.issuePost
  split
  · split <;> rfl
  · rfl

end Sys2Proof.Machine
end

section
/-! PROOFS. The fault record is valid exactly when FAULT is latched (R186): faults, acknowledgements, the bus, the
start-up sequence and every step. -/

namespace Sys2Proof.Machine

open Sys2Proof.Safety

section
variable {s t : State}

/-- FAULT is bit 6 of the latched causes (R199). -/
theorem and_causeFault_eq_iff (x : BitVec 8) : x &&& causeFault = causeFault ↔ x[6] = true := by
  rw [show causeFault = BitVec.twoPow 8 6 from rfl, BitVec.and_twoPow, BitVec.getLsbD_eq_getElem (by decide)]
  cases x[6] <;> decide

/-- `FaultRecordAgrees`, with FAULT read as its bit. -/
structure RecordAgrees (s : State) : Prop where
  valid : s.fault.isSome = s.latched[6]
  overflow : s.fault = none → s.overflow = 0

theorem recordAgrees_iff : RecordAgrees s ↔ FaultRecordAgrees s := by
  rw [FaultRecordAgrees, and_causeFault_eq_iff, ← Bool.eq_iff_iff]
  exact ⟨fun ⟨hvalid, hoverflow⟩ => ⟨hvalid, hoverflow⟩, fun ⟨hvalid, hoverflow⟩ => ⟨hvalid, hoverflow⟩⟩

theorem RecordAgrees.of_faultPart (h : RecordAgrees s) (e : t.faultPart = s.faultPart) : RecordAgrees t := by
  obtain ⟨hfault, hoverflow, hlatched⟩ :
      t.fault = s.fault ∧ t.overflow = s.overflow ∧ t.latched[6] = s.latched[6] := by
    simpa only [State.faultPart, Prod.mk.injEq] using e
  constructor
  · rw [hfault, hlatched]
    exact h.valid
  · rw [hfault, hoverflow]
    exact h.overflow

/-- A fault fills a record that is not valid and latches FAULT with it, or is counted by one that stays valid (R186). -/
theorem RecordAgrees.raiseFault (h : RecordAgrees s) (f : FaultEntry) : RecordAgrees (s.raiseFault f) := by
  unfold State.raiseFault
  split
  · exact ⟨by simp [causeFault], fun hnone => nomatch hnone⟩
  · rename_i hsome
    exact ⟨h.valid, fun hnone => by simp [hsome] at hnone⟩

/-- An acknowledgement clears the record with FAULT, or leaves FAULT as it was (R184, R187). -/
theorem RecordAgrees.acknowledge (h : RecordAgrees s) (named : BitVec 8) : RecordAgrees (s.acknowledge named) := by
  unfold State.acknowledge
  dsimp only
  split
  · rename_i hnamed
    rw [and_causeFault_eq_iff, BitVec.getElem_and, Bool.and_eq_true] at hnamed
    exact ⟨by simp [hnamed.2], fun _ => rfl⟩
  · rename_i hkept
    rw [and_causeFault_eq_iff, BitVec.getElem_and, Bool.and_eq_true, not_and] at hkept
    refine h.of_faultPart ?_
    simpa [State.faultPart] using hkept

/-- A reset clears the record and every latched cause (R189). -/
theorem recordAgrees_resetBlocks (s : State) (cause : ResetCause) (phase : Seq) :
    RecordAgrees (s.resetBlocks cause phase) where
  valid := by simp [State.resetBlocks, State.reset]
  overflow _ := rfl

/-! Window writes (R147). -/

theorem faultPart_settingEffect (s : State) (txn : Txn) (r : Reached) (w : SettingWord) :
    (s.settingEffect txn r w).state.faultPart = s.faultPart := by
  unfold State.settingEffect
  dsimp only
  split
  · exact faultPart_takeMode _ _
  · rfl

theorem RecordAgrees.lineEffect (h : RecordAgrees s) (txn : Txn) (r : Reached) (n : SlotNo) :
    RecordAgrees (s.lineEffect txn r n).state := by
  unfold State.lineEffect
  dsimp only [State.commandEffect]
  split
  · exact h.of_faultPart (faultPart_lineEvent s n _ _)
  · exact h.raiseFault _

theorem RecordAgrees.rightfulEffect (h : RecordAgrees s) (txn : Txn) (r : Reached) :
    RecordAgrees (s.rightfulEffect txn r).state := by
  unfold State.rightfulEffect
  split
  · exact h.raiseFault _
  · split
    · exact h.acknowledge _
    · exact h.of_faultPart (faultPart_actionEvent s _ _ _)
    · exact h.lineEffect txn r _
    · exact h.of_faultPart (faultPart_controlEvent s _ _)
    · exact h.of_faultPart (faultPart_takeHeartbeat s)
    · unfold State.restartEffect
      split <;> exact h
    · exact h.of_faultPart (faultPart_settingEffect s txn r _)
    · exact h.of_faultPart rfl
    · exact h.of_faultPart rfl
    · unfold State.viewEffect
      split <;> exact h
    · exact h

theorem RecordAgrees.writeEffect (h : RecordAgrees s) (txn : Txn) (r : Reached) :
    RecordAgrees (s.writeEffect txn r).state := by
  unfold State.writeEffect
  split
  · exact h.rightfulEffect txn r
  · unfold State.strayEffect
    dsimp only
    split <;> exact h.raiseFault _

/-! The C-side bus. -/

theorem RecordAgrees.perform (h : RecordAgrees s) (a : Access) : RecordAgrees (s.perform a) := by
  cases a with
  | restart addr data => exact recordAgrees_resetBlocks _ _ _
  | _ => exact h.of_faultPart rfl

theorem RecordAgrees.complete (h : RecordAgrees s) (txn : Txn) (owed : List Post) (a : Access) :
    RecordAgrees (s.complete txn owed a) := by
  unfold State.complete
  split
  · exact h.perform a
  · exact h.of_faultPart rfl

theorem RecordAgrees.finishWrite {e : WriteEffect} (h : RecordAgrees e.state) (before : State) (txn : Txn)
    (lock : Option Lock) : RecordAgrees (State.finishWrite before txn lock e) := by
  have hlock : RecordAgrees { e.state with lock := lock } := h.of_faultPart rfl
  unfold State.finishWrite
  refine RecordAgrees.complete ?_ _ _ _
  split
  · exact hlock.of_faultPart (faultPart_postingExcept _ _ _)
  · exact hlock.of_faultPart (faultPart_posting _ _)

theorem RecordAgrees.takeWindow (h : RecordAgrees s) (txn : Txn) (off : Offset) :
    RecordAgrees (s.takeWindow txn off) := by
  unfold State.takeWindow
  dsimp only
  split
  · exact (h.writeEffect txn _).finishWrite _ _ _
  · refine RecordAgrees.complete ?_ _ _ _
    exact h.of_faultPart rfl

theorem busInvariant_recordAgrees : BusInvariant RecordAgrees where
  of_bus _ _ h := h.of_faultPart rfl
  outside _ txn h _ _ := h.complete txn _ _
  window _ txn off h _ _ := h.takeWindow txn off

theorem RecordAgrees.issueOwed (h : RecordAgrees s) : RecordAgrees s.issueOwed := by
  unfold State.issueOwed
  split
  · exact h
  · dsimp only
    split
    · exact h.of_faultPart rfl
    · split
      · refine busInvariant_recordAgrees.resumeBus (RecordAgrees.perform ?_ _)
        exact h.of_faultPart rfl
      · exact h.of_faultPart rfl

theorem recordAgrees_resetFromPin (s : State) (cause : ResetCause) (phase : Seq) :
    RecordAgrees (s.resetFromPin cause phase) :=
  busInvariant_recordAgrees.resumeBus (recordAgrees_resetBlocks _ _ _)

/-! The Start-Up Sequencer (chapter 12): of its accesses an adoption alone can raise a fault (R193). -/

theorem faultPart_openingStep (s : State) : s.openingStep.faultPart = s.faultPart := by
  unfold State.openingStep
  split <;> rfl

theorem faultPart_fillStep (s : State) : s.fillStep.faultPart = s.faultPart := by
  unfold State.fillStep
  split <;> rfl

theorem faultPart_sweepSettingStep (s : State) : s.sweepSettingStep.faultPart = s.faultPart := by
  cases hst : s.stage with
  | settings k =>
    obtain ⟨m, mode, next, v, heq⟩ := sweepSettingStep_eq hst
    rw [heq]
    rfl
  | _ => rw [State.sweepSettingStep, hst]

theorem faultPart_endAdoption (s : State) (n : SlotNo) (found : Word32) :
    (s.endAdoption n found).faultPart = s.faultPart := by
  obtain ⟨m, heq⟩ := endAdoption_eq (j := s) rfl found
  rw [heq]
  rfl

theorem RecordAgrees.adoptStep (h : RecordAgrees s) : RecordAgrees s.adoptStep := by
  unfold State.adoptStep
  split
  · rename_i n _
    refine RecordAgrees.of_faultPart ?_ (faultPart_endAdoption _ n _)
    split
    · exact h.of_faultPart rfl
    · refine RecordAgrees.raiseFault ?_ _
      exact h.of_faultPart rfl
  · exact h

theorem faultPart_closingStep (s : State) : s.closingStep.faultPart = s.faultPart := by
  by_cases hst : s.stage = .closing
  · obtain ⟨m, heq⟩ := closingStep_eq hst
    rw [heq]
    rfl
  · rw [State.closingStep, if_neg hst]

/-- Entry to RUN latches STARTED (R195). -/
theorem faultPart_enterRun (s : State) : s.enterRun.faultPart = s.faultPart := by
  have hentered : s.entered.faultPart = s.faultPart := faultPart_latch s (cause := causeStarted) rfl
  rw [enterRun_eq, faultPart_arbitrate]
  split <;> exact hentered

theorem RecordAgrees.entryStep (h : RecordAgrees s) : RecordAgrees s.entryStep := by
  unfold State.entryStep
  split
  · exact busInvariant_recordAgrees.resumeBus (h.of_faultPart (faultPart_enterRun s))
  · exact h

/-! The commands and the step. -/

theorem RecordAgrees.exec (h : RecordAgrees s) (c : Instr) (he : exec c s = .next t) : RecordAgrees t := by
  cases hb : busTxn s c with
  | some txn =>
    rw [exec_bus s c hb] at he
    rw [← Host.Outcome.next.inj he]
    have hpins : RecordAgrees { s with pins := busPins s c } := h.of_faultPart rfl
    exact busInvariant_recordAgrees.arrive hpins txn
  | none =>
    cases c <;> simp only [busTxn, reduceCtorEq] at hb <;> rw [← Host.Outcome.next.inj he]
    case powerOnReset => exact recordAgrees_resetFromPin _ _ _
    case resetN => exact recordAgrees_resetFromPin _ _ _
    case openingWrite => exact h.of_faultPart (faultPart_openingStep s)
    case fill => exact h.of_faultPart (faultPart_fillStep s)
    case sweepSettingRead => exact h.of_faultPart (faultPart_sweepSettingStep s)
    case adoption => exact h.adoptStep
    case closingWrites => exact h.of_faultPart (faultPart_closingStep s)
    case entryToRun => exact h.entryStep
    case callTick => exact h.of_faultPart (faultPart_callTick s)
    case secondTick => exact h.of_faultPart (faultPart_queueSecond s)
    case slotSecondTick => exact h.of_faultPart (faultPart_slotSecond s)
    case presentationExpiry n => exact h.of_faultPart (faultPart_presentationExpires s n)
    case breakInOfferExpiry n => exact h.of_faultPart (faultPart_offerExpires s n)
    case holdRecallExpiry n => exact h.of_faultPart (faultPart_recallExpiry s n .held)
    case transferRecallExpiry n => exact h.of_faultPart (faultPart_recallExpiry s n .extended)
    case campRecallExpiry n => exact h.of_faultPart (faultPart_recallExpiry s n .camped)
    case wrapUpExpiry p => exact h.of_faultPart (faultPart_wrapUpExpires s p)
    case supervisionExpiry => exact h.of_faultPart (faultPart_supervisionExpires s)
    case post => exact h.of_faultPart (faultPart_issuePost s)
    case owedIssue => exact h.issueOwed

end

/-- Settles O5: a fault fills the record and latches FAULT at once, an acknowledgement and a reset clear both at once,
and nothing else touches either. -/
theorem stepKeepsTheFaultRecordAgreeing : Obligations.StepKeepsTheFaultRecordAgreeing := by
  intro s t hs hstep
  have h : RecordAgrees s := recordAgrees_iff.2 hs
  refine recordAgrees_iff.1 ?_
  unfold step at hstep
  split at hstep
  · rw [← Host.Outcome.next.inj hstep]
    exact h.of_faultPart (faultPart_clkref s)
  · rename_i c rest _
    have hrest : RecordAgrees { s with pending := rest } := h.of_faultPart rfl
    exact hrest.exec c hstep

end Sys2Proof.Machine
end

section
/-! PROOFS. The sweep of the setting words (R192): the word found is clamped into its shadow, and memory is brought to
the shadow's word. -/

namespace Sys2Proof.Machine

open Sys2Proof.Safety

/-! A word brought to a value: written back when it is not that value already (R192). -/

/-- The call store once the word at bus address `a` is brought to `v`. -/
def Memory.bringWord (m : Memory) (a : BusAddr) (v : Word32) : Memory :=
  if v = m.readWord a then m else m.writeWord a fullLanes v

theorem Memory.readWord_bringWord_same {m : Memory} (hwf : m.wf = true) (a : BusAddr) (v : Word32) :
    (m.bringWord a v).readWord a = v := by
  unfold Memory.bringWord
  split
  next hsame => exact hsame.symm
  next => rw [Memory.readWord_writeWord_same a fullLanes v hwf, mergeLanes_full]

theorem Memory.read_bringWord_ne (m : Memory) {a : BusAddr} (v : Word32) {b : Nat} (hb : b / 4 ≠ a.toNat) :
    (m.bringWord a v).read b = m.read b := by
  unfold Memory.bringWord
  split
  next => rfl
  next => exact Memory.read_writeWord_ne m a fullLanes v hb

/-! The words the sweep reads, in ascending offset (R141, R192). -/

theorem toNat_settingOffset_sweepSetting : ∀ k : Fin 72, (settingOffset (sweepSetting k)).toNat =
    if k.val = 0 then 0 else if k.val < 8 then k.val + 1 else 0x038 + k.val := by
  decide

/-- The MODE word is the first one read. -/
theorem sweepSetting_eq_mode_iff : ∀ k : Fin 72, sweepSetting k = .mode ↔ k = 0 := by
  decide

/-- The shadows once the sweep has taken its `k`-th word as it stands in memory (R192). -/
def State.sweptSettings (s : State) (k : Fin 72) : Settings :=
  s.settings.commit (sweepSetting k) (s.mem.readWord (s.addr (settingOffset (sweepSetting k)))) s.requested

/-- The sweep's access to its `k`-th word. -/
theorem sweepSettingStep_bringWord {s : State} {k : Fin 72} (hst : s.stage = .settings k) :
    s.sweepSettingStep = { s with
      settings := s.sweptSettings k
      requested := if k = 0 then (s.sweptSettings k).mode else s.requested
      stage := if k = 71 then .adopting 0 else .settings (k + 1)
      mem := s.mem.bringWord (s.addr (settingOffset (sweepSetting k)))
        ((s.sweptSettings k).word (sweepSetting k)) } := by
  by_cases hsame : (s.sweptSettings k).word (sweepSetting k) = s.mem.readWord (s.addr (settingOffset (sweepSetting k)))
  · rw [Memory.bringWord, if_pos hsame]
    simp only [State.sweepSettingStep, hst, sweepSetting_eq_mode_iff]
    exact if_pos hsame
  · rw [Memory.bringWord, if_neg hsame]
    simp only [State.sweepSettingStep, hst, sweepSetting_eq_mode_iff]
    exact if_neg hsame

/-- Settles O17: the step is a commit of the word found and a word brought to the shadow's value, which
`toNat_settingWord` and `onlySettingChanged_commit` spell. -/
theorem sweepClampsEachSettingIntoItsShadow : Obligations.SweepClampsEachSettingIntoItsShadow := by
  intro s k hst hwf
  refine ⟨_, congrArg Host.Outcome.next (sweepSettingStep_bringWord hst), rfl, onlySettingChanged_commit _ _ _ _,
    toNat_settingOffset_sweepSetting k, Memory.readWord_bringWord_same hwf _ _, ?_,
    fun _ => Memory.read_bringWord_ne s.mem _⟩
  have hword := Memory.readWord_bringWord_same hwf (s.addr (settingOffset (sweepSetting k)))
    ((s.sweptSettings k).word (sweepSetting k))
  exact (congrArg BitVec.toNat hword).trans (toNat_settingWord _ _)

end Sys2Proof.Machine
end

section
/-! PROOFS. The C-side bus when it is free again (R132): the first transaction that waits, and those behind it. -/

namespace Sys2Proof.Machine

open Sys2Proof.Safety

section
variable {s : State} {txn : Txn} {rest : List Txn} {off : Offset}

theorem arrive_of_free (hheld : s.held = none) (hbus : s.bus = []) : s.arrive txn = s.take txn := by
  simp [State.arrive, State.busBusy, hheld, hbus]

theorem arrive_behind (hbus : s.bus ≠ []) (txn : Txn) : s.arrive txn = { s with bus := s.bus ++ [txn] } := by
  simp [State.arrive, State.busBusy, hbus]

/-- Behind a transaction that waits, those issued later wait in their order (R132). -/
theorem foldl_arrive_behind (hbus : s.bus ≠ []) (rest : List Txn) :
    rest.foldl State.arrive s = { s with bus := s.bus ++ rest } := by
  induction rest generalizing s with
  | nil => simp
  | cons txn rest ih =>
    rw [List.foldl_cons, arrive_behind hbus, ih (by simp)]
    simp

/-- Inside the window a transaction waits for RUN (R132). -/
theorem take_before_run (hseq : s.seq ≠ .run) (hoff : windowOffset s.straps.wbase txn.addr = some off) :
    s.take txn = { s with bus := [txn] } := by
  simp [State.take, hoff, hseq]

/-- Outside the window a transaction passes, at once when nothing is owed (R129). -/
theorem take_outside (howed : s.owed = []) (hoff : windowOffset s.straps.wbase txn.addr = none) :
    s.take txn = s.perform (outsideAccess txn) := by
  simp [State.take, hoff, State.complete, howed]

theorem resumeBus_nil (hbus : s.bus = []) : s.resumeBus = s := by
  rw [State.resumeBus, hbus, List.foldl_nil, ← hbus]

theorem resumeBus_cons (hheld : s.held = none) (hbus : s.bus = txn :: rest) :
    s.resumeBus = rest.foldl State.arrive ({ s with bus := [] }.take txn) := by
  rw [State.resumeBus, hbus, List.foldl_cons, arrive_of_free (by exact hheld) rfl]

/-- Before RUN nothing moves while the first transaction that waits lies inside the window (R132). -/
theorem resumeBus_before_run (hheld : s.held = none) (hseq : s.seq ≠ .run) (hbus : s.bus = txn :: rest)
    (hoff : windowOffset s.straps.wbase txn.addr = some off) : s.resumeBus = s := by
  rw [resumeBus_cons hheld hbus, take_before_run (by exact hseq) (by exact hoff), foldl_arrive_behind (by simp),
    List.singleton_append, ← hbus]

/-- Where the first transaction lies outside the window it passes, and those behind it follow (R129, R132). -/
theorem resumeBus_outside (hheld : s.held = none) (howed : s.owed = []) (hbus : s.bus = txn :: rest)
    (hoff : windowOffset s.straps.wbase txn.addr = none) :
    s.resumeBus = rest.foldl State.arrive ({ s with bus := [] }.perform (outsideAccess txn)) := by
  rw [resumeBus_cons hheld hbus, take_outside (by exact howed) (by exact hoff)]

end

/-! The own access of a transaction outside the window (R129). -/

/-- It changes the reply and the word written, and nothing else. -/
theorem perform_outsideAccess (s : State) (txn : Txn) : s.perform (outsideAccess txn) = { s with
    mem := (s.perform (outsideAccess txn)).mem, reply := (s.perform (outsideAccess txn)).reply } := by
  unfold outsideAccess
  split <;> rfl

theorem perform_outside_write (s : State) {txn : Txn} (hw : txn.write = true) :
    s.perform (outsideAccess txn) = { s with
      mem := s.mem.writeWord txn.addr txn.lanes txn.data, reply := none } := by
  rw [outsideAccess, if_pos hw]
  rfl

theorem perform_outside_read (s : State) {txn : Txn} (hr : txn.write = false) :
    s.perform (outsideAccess txn) = { s with reply := some (s.mem.readWord txn.addr) } := by
  rw [outsideAccess, if_neg (by simp [hr])]
  rfl

end Sys2Proof.Machine
end

section
/-! PROOFS. The resets from outside (R189), and the transactions that wait at one (R129, R132). -/

namespace Sys2Proof.Machine

open Sys2Proof.Safety

/-- The transactions that wait when a reset arrives, for owed issues or for RUN, in their order (R132). -/
def State.waiting (s : State) : List Txn := (s.held.map Held.txn).toList ++ s.bus

/-- The machine a reset of the given cause leaves, with the straps sampled and the free bus in front of it (R189). -/
def resetState (pins : Straps) (cause : ResetCause) (phase : Seq) (mem : Memory) (pending : List Instr) : State :=
  { State.reset with
    pins := pins, straps := pins, resetCause := cause, seq := phase, mem := mem, pending := pending }

/-- A reset from outside resets the blocks and issues the waiting transactions afresh (R132, R189). -/
theorem resetFromPin_eq (s : State) (cause : ResetCause) (phase : Seq) : s.resetFromPin cause phase =
    { resetState s.pins cause phase s.mem s.pending with bus := s.waiting }.resumeBus := by
  unfold State.resetFromPin State.waiting
  cases s.held <;> rfl

/-- Settles O13: `resetFromPin_eq` for both resets, and the bus by the place of the first transaction that waits. -/
theorem resetsGiveEveryBlockItsResetValues : Obligations.ResetsGiveEveryBlockItsResetValues := by
  intro pins sram s waiting begun resets
  have hresets : ∀ (c : Instr) (cause : ResetCause) (phase : Seq) (mem : Memory), phase ≠ .run →
      exec c s = .next { begun cause phase mem with bus := waiting }.resumeBus →
      resets c (begun cause phase mem) := by
    intro c cause phase mem hphase hexec
    refine ⟨fun hnone => ?_, fun txn rest hwaiting => ⟨fun off hoff => ?_, fun hoff hwf => ?_⟩⟩
    · rw [hexec, hnone, resumeBus_nil rfl]
      rfl
    · rw [hexec, hwaiting, resumeBus_before_run rfl hphase rfl hoff]
    · rw [hexec, hwaiting, resumeBus_outside rfl rfl rfl hoff]
      refine ⟨_, rfl, perform_outsideAccess _ _, fun hw => ?_, fun hr => ?_⟩
      · rw [perform_outside_write _ hw]
        exact ⟨rfl, Memory.readWord_writeWord_same txn.addr txn.lanes txn.data hwf,
          fun _ => Memory.read_writeWord_ne mem txn.addr txn.lanes txn.data⟩
      · rw [perform_outside_read _ hr]
        exact ⟨rfl, rfl⟩
  exact ⟨hresets _ _ _ _ (by decide) (congrArg Host.Outcome.next (resetFromPin_eq _ _ _)),
    hresets _ _ _ _ (by decide) (congrArg Host.Outcome.next (resetFromPin_eq _ _ _))⟩

end Sys2Proof.Machine
end

section
/-! PROOFS. Entry to RUN (R195), and the transaction that waited for it (R132). -/

namespace Sys2Proof.Machine

open Sys2Proof.Safety

section
variable {s t : State}

/-! The arbiter and entry to RUN do not look at the transactions that wait. -/

/-- `s` with the transactions `b` waiting to be issued. -/
def State.withBus (s : State) (b : List Txn) : State := { s with bus := b }

theorem withBus_self (s : State) : s.withBus s.bus = s := rfl

theorem lowestQualifying_withBus (s : State) (b : List Txn) (l : List PosNo) :
    (s.withBus b).lowestQualifying l = s.lowestQualifying l := by
  induction l with
  | nil => rfl
  | cons p l ih =>
    simp only [State.lowestQualifying, ih]
    rfl

theorem bestAt_withBus (s : State) (b : List Txn) (c : Class) : (s.withBus b).bestAt c = s.bestAt c := rfl

theorem presentAll_withBus (k : Nat) (s : State) (b : List Txn) :
    State.presentAll k (s.withBus b) = (State.presentAll k s).withBus b := by
  induction k generalizing s with
  | zero => rfl
  | succ k ih =>
    cases he : s.bestCandidate with
    | none =>
      rw [presentAll_stops (s := s) _ (.inl he)]
      exact presentAll_stops _ (.inl he)
    | some e =>
      cases hl : s.readyList with
      | nil =>
        rw [presentAll_stops (s := s) _ (.inr hl)]
        exact presentAll_stops _ (.inr hl)
      | cons first rest =>
        rw [presentAll_succ he hl, ← ih]
        exact presentAll_succ (s := s.withBus b) he hl k

theorem offerAll_withBus (k : Nat) (s : State) (b : List Txn) :
    State.offerAll k (s.withBus b) = (State.offerAll k s).withBus b := by
  induction k generalizing s with
  | zero => rfl
  | succ k ih =>
    by_cases hl : s.readyList = []
    · cases hq : s.lowestQualifying allPositions with
      | none => simp [State.offerAll, lowestQualifying_withBus, hq]
      | some r =>
        cases he : s.bestAt r.2 with
        | none => simp [State.offerAll, lowestQualifying_withBus, bestAt_withBus, hq, he]
        | some e =>
          simp only [State.offerAll, lowestQualifying_withBus, bestAt_withBus, hq, he, hl, if_true, ← ih]
          exact if_pos hl
    · rw [offerAll_of_ready (s := s) _ hl]
      exact offerAll_of_ready _ hl

theorem arbitrate_withBus (s : State) (b : List Txn) : (s.withBus b).arbitrate = s.arbitrate.withBus b := by
  rw [State.arbitrate, presentAll_withBus, offerAll_withBus]
  rfl

theorem enterRun_withBus (s : State) (b : List Txn) : (s.withBus b).enterRun = s.enterRun.withBus b := by
  rw [enterRun_eq, enterRun_eq, ← arbitrate_withBus]
  exact congrArg State.arbitrate
    (apply_ite (State.withBus · b) (s.requested = .day) s.entered.armSupervision s.entered).symm

theorem kept_enterRun (s : State) : Kept s.entered s.enterRun := by
  rw [enterRun_eq]
  split
  · exact (kept_armSupervision s.entered).trans (kept_arbitrate _)
  · exact kept_arbitrate s.entered

/-! A bus row puts the same transaction on the C-side before and after entry to RUN. -/

theorem busTxn_congr (hstraps : t.straps = s.straps) (c : Instr) : busTxn t c = busTxn s c := by
  have haddr : t.addr = s.addr := funext (addr_congr hstraps)
  cases c <;> simp only [busTxn, State.lineTxn, State.actionTxn, State.controlTxn, State.modeTxn, State.writeTxn, haddr]

/-- A row that brings no new strap levels to `s` brings none to a state with the same pins. -/
theorem busPins_eq_pins (hpins : t.pins = s.pins) {c : Instr} (h : busPins s c = s.pins) : busPins t c = t.pins := by
  cases c with
  | restart r lock pins => exact h.trans hpins.symm
  | _ => rfl

/-! Entry to RUN. -/

theorem armAdopted_eq (s : State) (sl : Slot) : s.armAdopted sl = { sl with
    deadline :=
      if sl.disp = .held then s.arm (s.group sl.group).hold
      else if sl.disp = .extended then s.arm (s.group sl.group).transfer
      else if sl.disp = .camped then s.arm (s.group sl.group).camp
      else sl.deadline } := by
  cases sl with
  | mk disp => cases disp <;> rfl

/-- With the positions at their reset values the arbiter does nothing at entry to RUN. -/
theorem enterRun_positionsClosed (hready : s.readyList = []) (hpos : ∀ p, s.pos p = Position.empty) :
    s.enterRun = { s.entered with
      supervision :=
        if s.requested = .day then s.arm (supervisionSeconds s.settings.supervision) else s.supervision } := by
  rw [enterRun_eq]
  split
  · exact arbitrate_of_empty hready hpos
  · exact arbitrate_of_empty hready hpos

theorem entryStep_noneWaits (hst : s.stage = .entering) (hbus : s.bus = []) : s.entryStep = s.enterRun := by
  rw [State.entryStep, if_pos hst, resumeBus_nil ((kept_enterRun s).bus.trans hbus)]

/-- The one transaction that waited is taken in the state that entry to RUN leaves (R132). -/
theorem entryStep_oneWaits (hst : s.stage = .entering) (hbus : s.bus = []) (txn : Txn) :
    (s.withBus [txn]).entryStep = s.enterRun.arrive txn := by
  have hnone : s.enterRun.withBus [] = s.enterRun := by rw [← hbus, ← enterRun_withBus, withBus_self]
  rw [State.entryStep, if_pos (by exact hst), enterRun_withBus]
  exact congrArg (State.arrive · txn) hnone

end

/-- Settles O20: `enterRun_positionsClosed` is the state in RUN, and `entryStep_oneWaits` the arrival there, which is
that of the command itself. -/
theorem entryToRunStartsServiceAndTakesTheWaitingTransaction :
    Obligations.EntryToRunStartsServiceAndTakesTheWaitingTransaction := by
  refine ⟨fun s hst hagrees hbus => ?_, fun c s u txn hst _ hbus _ htxn hu hpins => ?_⟩
  · obtain ⟨hrunning, hstartUp, -⟩ := hagrees
    obtain ⟨hready, hpos, -⟩ := hstartUp fun hrun => by simp [hrunning.1 hrun] at hst
    refine ⟨_, congrArg Host.Outcome.next
      ((entryStep_noneWaits hst hbus).trans (enterRun_positionsClosed hready hpos)), rfl, fun n => ?_⟩
    exact (mapVec_get ..).trans (armAdopted_eq s (s.slot n))
  · obtain rfl : s.enterRun = u := (entryStep_noneWaits hst hbus).symm.trans (Host.Outcome.next.inj hu)
    have hkept := kept_enterRun s
    rw [exec_bus _ c ((busTxn_congr hkept.straps c).trans htxn), busPins_eq_pins hkept.pins hpins]
    exact congrArg Host.Outcome.next (entryStep_oneWaits hst hbus txn)

end Sys2Proof.Machine
end

section
/-! PROOFS. What every step keeps: a property that each part of a step keeps is kept by the step. -/

namespace Sys2Proof.Machine

open Sys2Proof.Safety

/-- A property of the machine that the events of ticks and deadlines keep. -/
structure DueInvariant (P : State → Prop) : Prop where
  presentationExpires : ∀ (s : State) (n : SlotNo), P s → P (s.presentationExpires n)
  offerExpires : ∀ (s : State) (n : SlotNo), P s → P (s.offerExpires n)
  recallExpiry : ∀ (s : State) (n : SlotNo) (d : Disp), P s → P (s.recallExpiry n d)
  wrapUpExpires : ∀ (s : State) (p : PosNo), P s → P (s.wrapUpExpires p)
  supervisionExpires : ∀ s : State, P s → P s.supervisionExpires
  queueSecond : ∀ s : State, P s → P s.queueSecond
  slotSecond : ∀ s : State, P s → P s.slotSecond

/-- A property of the machine that each part of a step keeps: the events of ticks and deadlines, the bus side and the
Posting Queue, which it does not look at, a write to the call store, the resets, a window write's event, and the accesses
of the Start-Up Sequencer. -/
structure StepInvariant (P : State → Prop) : Prop extends DueInvariant P where
  unseen : ∀ (s : State) (pins : Straps) (lock : Option Lock) (bus : List Txn) (held : Option Held)
    (reply : Option Word32) (posts owed : List Post) (prescaler : Nat) (pending : List Instr), P s →
    P { s with pins := pins, lock := lock, bus := bus, held := held, reply := reply, posts := posts, owed := owed,
               prescaler := prescaler, pending := pending }
  store : ∀ (s : State) (addr : BusAddr) (lanes : Lanes) (data : Word32), P s →
    P { s with mem := s.mem.writeWord addr lanes data }
  powerUp : ∀ (s : State) (sram : List Host.Cell), P s → P { s with mem := Memory.ofCells sram }
  reset : ∀ (s : State) (cause : ResetCause) (phase : Seq), P s → P (s.resetBlocks cause phase)
  effect : ∀ (s : State) (txn : Txn) (r : Reached), P s → P (s.writeEffect txn r).state
  tick : ∀ s : State, P s → P s.tick
  openingStep : ∀ s : State, P s → P s.openingStep
  fillStep : ∀ s : State, P s → P s.fillStep
  sweepSettingStep : ∀ s : State, P s → P s.sweepSettingStep
  adoptStep : ∀ s : State, P s → P s.adoptStep
  closingStep : ∀ s : State, P s → P s.closingStep
  enterRun : ∀ s : State, P s → P s.enterRun

section
variable {P : State → Prop} {s t : State}

/-! The C-side bus and the Posting Queue. -/

theorem StepInvariant.bus (hP : StepInvariant P) (h : P s) (bus : List Txn) : P { s with bus := bus } :=
  hP.unseen s s.pins s.lock bus s.held s.reply s.posts s.owed s.prescaler s.pending h

theorem StepInvariant.held (hP : StepInvariant P) (h : P s) (held : Option Held) : P { s with held := held } :=
  hP.unseen s s.pins s.lock s.bus held s.reply s.posts s.owed s.prescaler s.pending h

theorem StepInvariant.lock (hP : StepInvariant P) (h : P s) (lock : Option Lock) : P { s with lock := lock } :=
  hP.unseen s s.pins lock s.bus s.held s.reply s.posts s.owed s.prescaler s.pending h

theorem StepInvariant.pins (hP : StepInvariant P) (h : P s) (pins : Straps) : P { s with pins := pins } :=
  hP.unseen s pins s.lock s.bus s.held s.reply s.posts s.owed s.prescaler s.pending h

theorem StepInvariant.queue (hP : StepInvariant P) (h : P s) (posts owed : List Post) :
    P { s with posts := posts, owed := owed } :=
  hP.unseen s s.pins s.lock s.bus s.held s.reply posts owed s.prescaler s.pending h

theorem StepInvariant.putWord (hP : StepInvariant P) (h : P s) (off : Offset) (v : Word32) : P (s.putWord off v) :=
  hP.store s _ _ _ h

theorem StepInvariant.givePosts (hP : StepInvariant P) (h : P s) {given : List Post}
    (hn : (given.map Post.offset).Nodup) : P (s.givePosts given) := by
  obtain ⟨posts, owed, heq⟩ := givePosts_eq hn
  rw [heq]
  exact hP.queue h _ _

theorem StepInvariant.posting (hP : StepInvariant P) (h : P s) (before : State) : P (s.posting before) :=
  hP.givePosts h (changedPosts_nodup before s)

theorem StepInvariant.postingExcept (hP : StepInvariant P) (h : P s) (before : State) (off : Offset) :
    P (s.postingExcept before off) :=
  hP.givePosts (hP.queue h _ s.owed) (keptPosts_nodup before s off)

theorem StepInvariant.perform (hP : StepInvariant P) (h : P s) (a : Access) : P (s.perform a) := by
  have replied : ∀ u reply, P u → P { u with reply := reply } := fun u reply hu =>
    hP.unseen u u.pins u.lock u.bus u.held reply u.posts u.owed u.prescaler u.pending hu
  cases a with
  | nothing => exact replied s _ h
  | write addr lanes data => exact replied _ _ (hP.store s addr lanes data h)
  | restart addr data => exact hP.reset _ _ _ (hP.store s addr fullLanes data h)
  | read addr off => exact replied s _ h

theorem StepInvariant.complete (hP : StepInvariant P) (h : P s) (txn : Txn) (owed : List Post) (a : Access) :
    P (s.complete txn owed a) := by
  unfold State.complete
  split
  · exact hP.perform h a
  · exact hP.held h _

theorem StepInvariant.takeWindow (hP : StepInvariant P) (h : P s) (txn : Txn) (off : Offset) :
    P (s.takeWindow txn off) := by
  unfold State.takeWindow
  dsimp only
  split
  · have howners := hP.lock (hP.effect s txn (s.reach off) h) (lockAfter s.lock txn (s.reach off).offset)
    unfold State.finishWrite
    refine hP.complete ?_ _ _ _
    split
    · exact hP.postingExcept howners s _
    · exact hP.posting howners s
  · exact hP.complete (hP.lock h _) _ _ _

theorem StepInvariant.busInvariant (hP : StepInvariant P) : BusInvariant P where
  of_bus _ bus h := hP.bus h bus
  outside _ txn h _ _ := hP.complete h txn _ _
  window _ txn off h _ _ := hP.takeWindow h txn off

theorem StepInvariant.issuePost (hP : StepInvariant P) (h : P s) : P s.issuePost := by
  unfold State.issuePost
  split
  · split
    · exact hP.putWord (hP.queue h _ s.owed) _ _
    · exact h
  · exact h

theorem StepInvariant.issueOwed (hP : StepInvariant P) (h : P s) : P s.issueOwed := by
  unfold State.issueOwed
  split
  · exact h
  · rename_i e rest _
    have hwritten := hP.putWord (hP.queue h s.posts rest) e.offset e.value
    dsimp only
    split
    · exact hwritten
    · split
      · exact hP.busInvariant.resumeBus (hP.perform (hP.held hwritten none) _)
      · exact hP.held hwritten _

theorem StepInvariant.resetFromPin (hP : StepInvariant P) (h : P s) (cause : ResetCause) (phase : Seq) :
    P (s.resetFromPin cause phase) :=
  hP.busInvariant.resumeBus (hP.reset _ _ _ (hP.bus (hP.held h none) _))

/-! Ticks. -/

theorem DueInvariant.slotDue (hP : DueInvariant P) (h : P s) (n : SlotNo) : P (s.slotDue n) := by
  unfold State.slotDue
  split
  · exact hP.offerExpires _ n (hP.presentationExpires s n h)
  · exact hP.recallExpiry s n _ h
  · exact hP.recallExpiry s n _ h
  · exact hP.recallExpiry s n _ h
  · exact h

theorem foldl_keeps {α : Type} {f : State → α → State} (hf : ∀ u a, P u → P (f u a)) (l : List α) (h : P s) :
    P (l.foldl f s) := by
  induction l generalizing s with
  | nil => exact h
  | cons a l ih => exact ih (hf s a h)

theorem DueInvariant.takeDue (hP : DueInvariant P) (h : P s) : P s.takeDue := by
  have hslots : P (allSlots.foldl State.slotDue s) :=
    foldl_keeps (P := P) (fun _ n hu => hP.slotDue hu n) _ h
  have hpositions : P (allPositions.foldl State.wrapUpExpires (allSlots.foldl State.slotDue s)) :=
    foldl_keeps (P := P) hP.wrapUpExpires _ hslots
  unfold State.takeDue
  exact hP.slotSecond _ (hP.queueSecond _ (hP.supervisionExpires _ hpositions))

theorem StepInvariant.callTick (hP : StepInvariant P) (h : P s) : P s.callTick := hP.tick _ (hP.takeDue h)

theorem StepInvariant.clkref (hP : StepInvariant P) (h : P s) : P s.clkref := by
  unfold State.clkref
  split
  · exact hP.unseen s s.pins s.lock s.bus s.held s.reply s.posts s.owed _ s.pending h
  · exact hP.callTick h

/-! The commands and the step. -/

theorem StepInvariant.entryStep (hP : StepInvariant P) (h : P s) : P s.entryStep := by
  unfold State.entryStep
  split
  · exact hP.busInvariant.resumeBus (hP.enterRun s h)
  · exact h

theorem StepInvariant.exec (hP : StepInvariant P) (h : P s) (c : Instr) (he : exec c s = .next t) : P t := by
  cases hb : busTxn s c with
  | some txn =>
    rw [exec_bus s c hb] at he
    rw [← Host.Outcome.next.inj he]
    exact hP.busInvariant.arrive (hP.pins h (busPins s c)) txn
  | none =>
    cases c <;> simp only [busTxn, reduceCtorEq] at hb <;> rw [← Host.Outcome.next.inj he]
    case powerOnReset pins sram => exact hP.resetFromPin (hP.pins (hP.powerUp s sram h) pins) _ _
    case resetN pins => exact hP.resetFromPin (hP.pins h pins) _ _
    case openingWrite => exact hP.openingStep s h
    case fill => exact hP.fillStep s h
    case sweepSettingRead => exact hP.sweepSettingStep s h
    case adoption => exact hP.adoptStep s h
    case closingWrites => exact hP.closingStep s h
    case entryToRun => exact hP.entryStep h
    case callTick => exact hP.callTick h
    case secondTick => exact hP.queueSecond s h
    case slotSecondTick => exact hP.slotSecond s h
    case presentationExpiry n => exact hP.presentationExpires s n h
    case breakInOfferExpiry n => exact hP.offerExpires s n h
    case holdRecallExpiry n => exact hP.recallExpiry s n _ h
    case transferRecallExpiry n => exact hP.recallExpiry s n _ h
    case campRecallExpiry n => exact hP.recallExpiry s n _ h
    case wrapUpExpiry p => exact hP.wrapUpExpires s p h
    case supervisionExpiry => exact hP.supervisionExpires s h
    case post => exact hP.issuePost h
    case owedIssue => exact hP.issueOwed h

theorem StepInvariant.step (hP : StepInvariant P) (h : P s) (hstep : step s = .next t) : P t := by
  unfold Machine.step at hstep
  split at hstep
  · rw [← Host.Outcome.next.inj hstep]
    exact hP.clkref h
  · rename_i c rest _
    have hrest : P { s with pending := rest } :=
      hP.unseen s s.pins s.lock s.bus s.held s.reply s.posts s.owed s.prescaler rest h
    exact hP.exec hrest c hstep

end

/-! The call store's canonical form. -/

section
variable {s t : State}

/-- Ticks and expiries write nothing to the call store. -/
theorem EventsLead.mem_eq (e : EventsLead s t) : t.mem = s.mem := by
  induction e with
  | quiet hstore _ => exact (storePart_eq_iff.1 hstore).2.2.2.2.1
  | @posting s q hstore =>
    obtain ⟨posts, owed, heq⟩ := givePosts_eq (s := q) (changedPosts_nodup s q)
    rw [State.posting, heq]
    exact (storePart_eq_iff.1 hstore).2.2.2.2.1
  | trans _ _ ih ih' => exact ih'.trans ih

theorem EventsLead.wf (e : EventsLead s t) (h : s.mem.wf = true) : t.mem.wf = true := e.mem_eq ▸ h

theorem wf_openingStep (h : s.mem.wf = true) : s.openingStep.mem.wf = true := by
  unfold State.openingStep
  split
  · exact wf_putWord h _ _
  · exact h

theorem wf_fillStep (h : s.mem.wf = true) : s.fillStep.mem.wf = true := by
  unfold State.fillStep
  split
  · exact wf_putWord h _ _
  · exact h

theorem wf_adoptStep (h : s.mem.wf = true) : s.adoptStep.mem.wf = true := by
  cases hst : s.stage with
  | adopting n => exact (adoptStep_store hst h).1
  | _ => rw [State.adoptStep, hst]; exact h

theorem wf_putWords (h : s.mem.wf = true) (words : List Post) : (s.putWords words).mem.wf = true :=
  foldl_keeps (P := fun u => u.mem.wf = true) (fun _ e hu => wf_putWord hu e.offset e.value) words h

theorem wf_closingStep (h : s.mem.wf = true) : s.closingStep.mem.wf = true := by
  by_cases hst : s.stage = .closing
  · rw [mem_closingStep hst]
    exact wf_putWords h _
  · rw [State.closingStep, if_neg hst]
    exact h

theorem mem_enterRun (s : State) : s.enterRun.mem = s.mem := (kept_enterRun s).mem

theorem stepInvariant_wf : StepInvariant fun s => s.mem.wf = true where
  unseen _ _ _ _ _ _ _ _ _ _ h := h
  store _ _ _ _ h := Memory.writeWord_wf _ _ _ h
  powerUp _ sram _ := Memory.ofCells_wf sram
  reset _ _ _ h := h
  effect s txn r h := by rw [(storePart_eq_iff.1 (storePart_writeEffect s txn r)).2.2.2.2.1]; exact h
  presentationExpires s n := (eventsLead_presentationExpires s n).wf
  offerExpires s n := (eventsLead_offerExpires s n).wf
  recallExpiry s n d := (eventsLead_recallExpiry s n d).wf
  wrapUpExpires s p := (eventsLead_wrapUpExpires s p).wf
  supervisionExpires s := (eventsLead_supervisionExpires s).wf
  queueSecond s := (eventsLead_queueSecond s).wf
  slotSecond s := (eventsLead_slotSecond s).wf
  tick _ h := h
  openingStep _ := wf_openingStep
  fillStep _ := wf_fillStep
  sweepSettingStep _ := wf_sweepSettingStep
  adoptStep _ := wf_adoptStep
  closingStep _ := wf_closingStep
  enterRun s h := by rw [mem_enterRun]; exact h

end

/-- Settles O3: of the parts of a step, those that write to the call store write words, which keep the canonical form. -/
theorem stepKeepsTheCallStoreCanonical : Obligations.StepKeepsTheCallStoreCanonical :=
  fun _ _ h hstep => stepInvariant_wf.step h hstep

end Sys2Proof.Machine
end

section
/-! PROOFS. Optional fields and marks stay within their disposition or state: the moves of slot and position records. -/

namespace Sys2Proof.Safety

open Sys2Proof.Machine

section
variable {s : State} {n : SlotNo} {p : PosNo} {v : Slot} {x : Position}

/-! Slot records (R1, R3, R4, R7). -/

theorem slotFieldsFit_empty : SlotFieldsFit Slot.empty := by simp [SlotFieldsFit, Slot.empty]

theorem slotFieldsFit_offered (g : GroupNo) : SlotFieldsFit (Slot.offered g) := by
  simp [SlotFieldsFit, Slot.offered, Slot.empty]

theorem slotFieldsFit_presentedAt (sl : Slot) (p : PosNo) (breakIn : Bool) (deadline : Option Tick) :
    SlotFieldsFit (sl.presentedAt p breakIn deadline) := by
  simp [SlotFieldsFit, Slot.presentedAt]

theorem slotFieldsFit_returned (sl : Slot) : SlotFieldsFit sl.returned := by
  unfold Slot.returned
  split <;> simp [SlotFieldsFit]

theorem slotFieldsFit_answeredAt (sl : Slot) (p : PosNo) (c : Sys2Proof.Class) : SlotFieldsFit (sl.answeredAt p c) := by
  simp [SlotFieldsFit, Slot.answeredAt]

theorem slotFieldsFit_setAside (sl : Slot) : SlotFieldsFit sl.setAside := by simp [SlotFieldsFit, Slot.setAside]

theorem slotFieldsFit_broughtBack (sl : Slot) : SlotFieldsFit sl.broughtBack := by
  simp [SlotFieldsFit, Slot.broughtBack]

theorem slotFieldsFit_away (sl : Slot) {d : Disp} (hd : d = .held ∨ d = .extended ∨ d = .camped)
    (deadline : Option Tick) : SlotFieldsFit (sl.away d deadline) := by
  rcases hd with rfl | rfl | rfl <;> simp [SlotFieldsFit, Slot.away]

theorem slotFieldsFit_recalled (sl : Slot) (limit : BitVec 3) : SlotFieldsFit (sl.recalled limit) := by
  simp [SlotFieldsFit, Slot.recalled]

/-- Only a FREE slot's elapsed count is bound. -/
theorem SlotFieldsFit.elapsed (h : SlotFieldsFit v) (hu : v.disp ≠ .free) (e : BitVec 12) :
    SlotFieldsFit { v with elapsed := e } :=
  ⟨fun hfree => absurd hfree hu, h.2⟩

theorem SlotFieldsFit.aged (h : SlotFieldsFit v) : SlotFieldsFit v.aged := by
  unfold Slot.aged
  split
  · rename_i ha
    exact h.elapsed (fun hfree => by simp [hfree, Disp.agesAtSlot] at ha) _
  · exact h

theorem SlotFieldsFit.armAdopted (h : SlotFieldsFit v) (s : State) : SlotFieldsFit (s.armAdopted v) := by
  have ⟨_, _, hkind, hbreak, hsaved⟩ := h
  unfold State.armAdopted
  split
  · rename_i hd; exact ⟨by simp [hd], fun _ => .inr (.inl hd), hkind, hbreak, hsaved⟩
  · rename_i hd; exact ⟨by simp [hd], fun _ => .inr (.inr (.inl hd)), hkind, hbreak, hsaved⟩
  · rename_i hd; exact ⟨by simp [hd], fun _ => .inr (.inr (.inr hd)), hkind, hbreak, hsaved⟩
  · exact h

/-! Position records (R45, R74, R75). -/

theorem positionFieldsFit_bare (x : Position) (st : PosState) : PositionFieldsFit (x.bare st) := by
  simp [PositionFieldsFit, Position.bare, Position.empty]

theorem positionFieldsFit_presenting (x : Position) (n : SlotNo) :
    PositionFieldsFit { x.bare .presenting with presented := some n } := by
  simp [PositionFieldsFit, Position.bare, Position.empty]

theorem positionFieldsFit_wrapup (x : Position) (deadline : Option Tick) :
    PositionFieldsFit { x.bare .wrapup with wrapDeadline := deadline } := by
  simp [PositionFieldsFit, Position.bare, Position.empty]

/-- An ENGAGED position may hold any call fields but a guard. -/
theorem positionFieldsFit_engaged (he : x.state = .engaged) (hguard : x.wrapDeadline = none)
    (hroom : x.stack.length ≤ Config.stackDepth) : PositionFieldsFit x :=
  ⟨fun hne => absurd he hne, fun hne => absurd he hne, fun _ => hguard, hroom⟩

theorem PositionFieldsFit.unpresented (h : PositionFieldsFit x) : PositionFieldsFit { x with presented := none } :=
  ⟨h.1, fun _ _ => rfl, h.2.2⟩

theorem PositionFieldsFit.guard (h : PositionFieldsFit x) (he : x.state = .engaged) : x.wrapDeadline = none :=
  h.2.2.1 (by simp [he])

/-- A stacked call shows that the position is ENGAGED. -/
theorem PositionFieldsFit.engaged_of_stack (h : PositionFieldsFit x) {top : StackEntry} {rest : List StackEntry}
    (hs : x.stack = top :: rest) : x.state = .engaged := by
  by_contra hne
  obtain ⟨-, -, hstack, -⟩ := h.1 hne
  simp [hs] at hstack

/-! One record replaced. -/

theorem RecordsFit.of_records {t : State} (h : RecordsFit s) (hslots : t.slots = s.slots)
    (hpositions : t.positions = s.positions) : RecordsFit t := by
  unfold RecordsFit State.slot State.pos
  rw [hslots, hpositions]
  exact h

theorem RecordsFit.setSlot (h : RecordsFit s) (n : SlotNo) (hv : SlotFieldsFit v) : RecordsFit (s.setSlot n v) := by
  refine ⟨fun m => ?_, h.2⟩
  rw [State.slot_setSlot]
  split
  · exact hv
  · exact h.1 m

theorem RecordsFit.setPos (h : RecordsFit s) (p : PosNo) (hx : PositionFieldsFit x) : RecordsFit (s.setPos p x) := by
  refine ⟨h.1, fun q => ?_⟩
  rw [State.pos_setPos]
  split
  · exact hx
  · exact h.2 q

theorem RecordsFit.mapSlots (h : RecordsFit s) {f : Slot → Slot} (hf : ∀ v, SlotFieldsFit v → SlotFieldsFit (f v)) :
    RecordsFit { s with slots := mapVec f s.slots } := by
  refine ⟨fun m => ?_, h.2⟩
  change SlotFieldsFit (mapVec f s.slots)[m]
  rw [mapVec_get]
  exact hf _ (h.1 m)

/-! Moves of slots and positions. -/

theorem RecordsFit.freeSlot (h : RecordsFit s) (n : SlotNo) : RecordsFit (s.freeSlot n) :=
  h.setSlot n slotFieldsFit_empty

theorem RecordsFit.recallSlot (h : RecordsFit s) (n : SlotNo) : RecordsFit (s.recallSlot n) :=
  h.setSlot n (slotFieldsFit_recalled _ _)

theorem RecordsFit.becomeReady (h : RecordsFit s) (p : PosNo) : RecordsFit (s.becomeReady p) :=
  h.setPos p (positionFieldsFit_bare _ _)

theorem RecordsFit.becomeClosed (h : RecordsFit s) (p : PosNo) : RecordsFit (s.becomeClosed p) :=
  h.setPos p (positionFieldsFit_bare _ _)

theorem RecordsFit.becomeWrapup (h : RecordsFit s) (p : PosNo) : RecordsFit (s.becomeWrapup p) :=
  h.setPos p (positionFieldsFit_wrapup _ _)

theorem RecordsFit.withdraw (h : RecordsFit s) (p : PosNo) : RecordsFit (s.withdraw p) := by
  unfold State.withdraw
  split
  · exact h
  · exact (h.setSlot _ (slotFieldsFit_returned _)).setPos p (h.2 p).unpresented

theorem RecordsFit.retest (h : RecordsFit s) (p : PosNo) : RecordsFit (s.retest p) := by
  unfold State.retest
  split
  · exact h
  · split
    · exact h
    · exact h.withdraw p

theorem RecordsFit.popStack (h : RecordsFit s) {top : StackEntry} {rest : List StackEntry}
    (hs : (s.pos p).stack = top :: rest) : RecordsFit (s.popStack p top rest) := by
  have he := (h.2 p).engaged_of_stack hs
  have hroom := (h.2 p).2.2.2
  rw [hs, List.length_cons] at hroom
  have hx : PositionFieldsFit
      { s.pos p with talking := some top.slot, threshold := some top.threshold, stack := rest } :=
    positionFieldsFit_engaged he ((h.2 p).guard he) (Nat.le_of_succ_le hroom)
  exact ((h.setSlot top.slot (slotFieldsFit_broughtBack (s.slot top.slot))).setPos p hx).retest p

theorem RecordsFit.releasePresenter (h : RecordsFit s) (p : PosNo) : RecordsFit (s.releasePresenter p) := by
  unfold State.releasePresenter
  split
  · exact h.becomeReady p
  · exact h.setPos p (h.2 p).unpresented

theorem RecordsFit.closePending (h : RecordsFit s) (he : (s.pos p).state = .engaged) :
    RecordsFit ((s.withdraw p).setPos p { (s.withdraw p).pos p with closePending := true }) := by
  have hw := h.withdraw p
  have hstate : ((s.withdraw p).pos p).state = .engaged := by rw [State.pos_withdraw, if_pos rfl]; exact he
  exact hw.setPos p (positionFieldsFit_engaged hstate ((hw.2 p).guard hstate) (hw.2 p).2.2.2)

/-! The Presentation Arbiter (R83 to R86). -/

theorem RecordsFit.presentTo (h : RecordsFit s) (n : SlotNo) (p : PosNo) : RecordsFit (s.presentTo n p) :=
  (h.setSlot n (slotFieldsFit_presentedAt _ p _ _)).setPos p (positionFieldsFit_presenting _ n)

theorem RecordsFit.offerTo (h : RecordsFit s) (n : SlotNo) (he : (s.pos p).state = .engaged) :
    RecordsFit (s.offerTo n p) :=
  (h.setSlot n (slotFieldsFit_presentedAt _ p _ _)).setPos p
    (positionFieldsFit_engaged he ((h.2 p).guard he) (h.2 p).2.2.2)

theorem RecordsFit.presentAll (h : RecordsFit s) (k : Nat) : RecordsFit (State.presentAll k s) := by
  induction k generalizing s with
  | zero => exact h
  | succ k ih =>
    unfold State.presentAll
    split
    · exact ih (h.presentTo _ _)
    · exact h

theorem RecordsFit.offerAll (h : RecordsFit s) (k : Nat) : RecordsFit (State.offerAll k s) := by
  induction k generalizing s with
  | zero => exact h
  | succ k ih =>
    unfold State.offerAll
    split
    · split
      · rename_i p t hq
        split
        · exact ih (h.offerTo _ (qualifying_some (lowestQualifying_some hq)).1)
        · exact h
      · exact h
    · exact h

theorem RecordsFit.arbitrate (h : RecordsFit s) : RecordsFit s.arbitrate := (h.presentAll _).offerAll 4

theorem RecordsFit.arbitrateAfter (h : RecordsFit s) (p : PosNo) (old : Position) :
    RecordsFit (s.arbitrateAfter p old) := by
  unfold State.arbitrateAfter
  split
  · exact h.arbitrate
  · exact h

/-! The Mode Unit (R117 to R125). -/

theorem RecordsFit.drained (h : RecordsFit s) : RecordsFit s.drained := by
  unfold State.drained
  split
  · exact h
  · exact h

theorem RecordsFit.nightClose (h : RecordsFit s) (p : PosNo) : RecordsFit (s.nightClose p) := by
  unfold State.nightClose
  split
  · exact h
  · rename_i he; exact h.closePending he
  · exact (h.withdraw p).becomeClosed p

theorem RecordsFit.nightRequest (h : RecordsFit s) : RecordsFit s.nightRequest := by
  have hclosed : RecordsFit (allPositions.foldl State.nightClose s) :=
    foldl_keeps (P := RecordsFit) (fun _ p hu => hu.nightClose p) _ h
  unfold State.nightRequest
  generalize allPositions.foldl State.nightClose s = closed at hclosed ⊢
  dsimp only
  split
  · exact hclosed.of_records rfl rfl
  · exact hclosed.of_records rfl rfl

theorem RecordsFit.takeMode (h : RecordsFit s) (v : Service) : RecordsFit (s.takeMode v) := by
  have hasked : RecordsFit { s with requested := v } := h
  unfold State.takeMode
  dsimp only
  split
  · split
    · exact h
    · exact hasked.nightRequest
  · split
    · exact RecordsFit.arbitrate h
    · exact h
  · exact RecordsFit.arbitrate h
  · exact h
  · exact h

theorem RecordsFit.takeHeartbeat (h : RecordsFit s) : RecordsFit s.takeHeartbeat := by
  unfold State.takeHeartbeat
  split
  · exact h
  · exact h
  · split
    · exact RecordsFit.arbitrate h
    · exact RecordsFit.nightRequest h

theorem RecordsFit.lapsePosition (h : RecordsFit s) (p : PosNo) : RecordsFit (s.lapsePosition p) := by
  unfold State.lapsePosition
  split
  · exact (h.withdraw p).becomeReady p
  · exact h.withdraw p
  · exact h

theorem RecordsFit.lapse (h : RecordsFit s) : RecordsFit s.lapse := by
  have hlapsed : RecordsFit { s with supervision := none, actual := .lapsed } := h
  have hpositions := foldl_keeps (P := RecordsFit) (fun _ p hu => hu.lapsePosition p) allPositions hlapsed
  unfold State.lapse
  generalize allPositions.foldl State.lapsePosition _ = lapsed at hpositions ⊢
  exact hpositions.of_records rfl rfl

/-! Leaving a call (R38, R43, R48). -/

theorem RecordsFit.leaveEngaged (h : RecordsFit s) (p : PosNo) (byHold : Bool) : RecordsFit (s.leaveEngaged p byHold) := by
  have hw := h.withdraw p
  unfold State.leaveEngaged
  dsimp only
  split
  · exact (hw.becomeClosed p).drained
  · split
    · exact hw.becomeReady p
    · exact hw.becomeWrapup p

theorem RecordsFit.leaveCall (h : RecordsFit s) (p : PosNo) (byHold : Bool) : RecordsFit (s.leaveCall p byHold) := by
  unfold State.leaveCall
  split
  · rename_i hs; exact h.popStack hs
  · exact h.leaveEngaged p byHold

end

end Sys2Proof.Safety
end

section
/-! PROOFS. Optional fields and marks stay within their disposition or state: line events, actions, expiries and the
sequencer. -/

namespace Sys2Proof.Safety

open Sys2Proof.Machine

section
variable {s : State} {n : SlotNo} {p : PosNo}

/-! Line events (R15 to R28). -/

theorem RecordsFit.offerEvent (h : RecordsFit s) (n : SlotNo) (g : GroupNo) : RecordsFit (s.offerEvent n g).state := by
  have hqueued := h.setSlot n (slotFieldsFit_offered g)
  unfold State.offerEvent
  split
  · split
    · exact h
    · exact RecordsFit.arbitrate hqueued
  · exact h

theorem RecordsFit.abandonEvent (h : RecordsFit s) (n : SlotNo) : RecordsFit (s.abandonEvent n).state := by
  have hfree := h.freeSlot n
  have hgone : RecordsFit (s.abandonWaiting n) := hfree
  unfold State.abandonEvent
  split
  case h_1 => exact h
  case h_4 =>
    dsimp only [State.abandonPresented]
    split
    · exact (hgone.releasePresenter _).arbitrate
    · exact hgone.arbitrate
  case h_5 =>
    dsimp only [State.abandonTalking]
    split
    · exact (hfree.leaveCall _ _).arbitrateAfter _ _
    · exact hfree
  case h_6 =>
    dsimp only [State.abandonSplit]
    split
    · rename_i p _
      obtain ⟨hcalls, hpresented, hguard, hroom⟩ := h.2 p
      have hx : PositionFieldsFit { s.pos p with stack := dropEntry (s.pos p).stack n } := by
        refine ⟨fun hne => ?_, hpresented, hguard, (List.length_filter_le _ _).trans hroom⟩
        obtain ⟨ht, hth, hstack, hpend⟩ := hcalls hne
        exact ⟨ht, hth, congrArg (dropEntry · n) hstack, hpend⟩
      exact (hfree.setPos p hx).arbitrateAfter p _
    · exact hfree
  all_goals exact hfree

theorem RecordsFit.lineEvent (h : RecordsFit s) (n : SlotNo) (code : BitVec 8) (g : GroupNo) :
    RecordsFit (s.lineEvent n code g).state := by
  unfold State.lineEvent
  split
  · exact h.offerEvent n g
  · exact h.abandonEvent n
  · unfold State.extAnswerEvent
    split
    · exact h.freeSlot n
    · exact h
  · unfold State.extBusyEvent
    split
    · exact h.setSlot n (slotFieldsFit_away _ (.inr (.inr rfl)) _)
    · exact h
  · unfold State.extFreeEvent
    split
    · exact h.setSlot n (slotFieldsFit_away _ (.inr (.inl rfl)) _)
    · exact h
  · unfold State.extFailEvent
    split
    · exact (h.recallSlot n).arbitrate
    · exact h
  · exact h

/-! Attendant actions (chapter 2) and CONTROL (R77 to R81). -/

theorem RecordsFit.endElsewhere (h : RecordsFit s) (n : SlotNo) (p : PosNo) : RecordsFit (s.endElsewhere n p) := by
  unfold State.endElsewhere
  split
  · split
    · exact h
    · exact h.releasePresenter _
  · exact h

theorem RecordsFit.clearForAnswer (h : RecordsFit s) (n : SlotNo) (p : PosNo) : RecordsFit (s.clearForAnswer n p) := by
  unfold State.clearForAnswer
  split
  · exact (h.endElsewhere n p).withdraw p
  · exact h.endElsewhere n p

/-- The clearing leaves the acting position its state and its stack. -/
theorem clearForAnswer_state_stack (s : State) (n : SlotNo) (p : PosNo) :
    ((s.clearForAnswer n p).pos p).state = (s.pos p).state ∧
      ((s.clearForAnswer n p).pos p).stack = (s.pos p).stack := by
  have hpos := pos_endElsewhere s n p
  unfold State.clearForAnswer
  split
  · rw [State.pos_withdraw, if_pos rfl, hpos]
    exact ⟨rfl, rfl⟩
  · rw [hpos]
    exact ⟨rfl, rfl⟩

/-- A push needs room on the stack (R32, R33). -/
theorem RecordsFit.pushTalking (h : RecordsFit s)
    (hroom : (s.pos p).state = .engaged → (s.pos p).stack.length < Config.stackDepth) : RecordsFit (s.pushTalking p) := by
  unfold State.pushTalking
  split
  · rename_i he _ _
    exact (h.setSlot _ (slotFieldsFit_setAside _)).setPos p
      (positionFieldsFit_engaged he ((h.2 p).guard he) (hroom he))
  · exact h

theorem RecordsFit.seated {v : Slot} (h : RecordsFit s) (n : SlotNo) (p : PosNo) (hv : SlotFieldsFit v)
    (c : Sys2Proof.Class) (al : List Listed) (ct : Vector Counters 32) : RecordsFit (s.seated n p v c al ct) := by
  have hx : PositionFieldsFit ((s.pos p).engagedWith n c) := positionFieldsFit_engaged rfl rfl (h.2 p).2.2.2
  exact ((h.setSlot n hv).setPos p hx).of_records rfl rfl

theorem RecordsFit.answerTaken (h : RecordsFit s) (n : SlotNo)
    (hroom : (s.pos p).state = .engaged → (s.pos p).stack.length < Config.stackDepth) :
    RecordsFit (s.answerTaken n p) := by
  obtain ⟨hstate, hstack⟩ := clearForAnswer_state_stack s n p
  have hpushed := (h.clearForAnswer n p).pushTalking (p := p) (by rw [hstate, hstack]; exact hroom)
  obtain ⟨ct, heq⟩ := answerTaken_eq s n p
  rw [heq]
  exact ((hpushed.seated n p (slotFieldsFit_answeredAt _ _ _) _ _ ct).retest p).arbitrate

theorem RecordsFit.answerAction (h : RecordsFit s) (n : SlotNo) (p : PosNo) : RecordsFit (s.answerAction n p).state := by
  unfold State.answerAction
  split
  · split
    · exact h
    · split
      · exact h
      · rename_i hfull
        exact h.answerTaken n fun he => by simpa [State.isEngaged, he] using hfull
  · exact h

theorem RecordsFit.swapTaken (h : RecordsFit s) (n : SlotNo) {top : StackEntry} {rest : List StackEntry}
    (hs : (s.pos p).stack = top :: rest) : RecordsFit (s.swapTaken n p top rest) := by
  have he := (h.2 p).engaged_of_stack hs
  have hroom := (h.2 p).2.2.2
  rw [hs] at hroom
  have haside := h.setSlot n (slotFieldsFit_setAside (s.slot n))
  have hback := haside.setSlot top.slot (slotFieldsFit_broughtBack ((s.setSlot n (s.slot n).setAside).slot top.slot))
  have hx : ∀ saved : Sys2Proof.Class, PositionFieldsFit { s.pos p with
      talking := some top.slot, threshold := some top.threshold, stack := ⟨n, saved⟩ :: rest } :=
    fun _ => positionFieldsFit_engaged he ((h.2 p).guard he) hroom
  exact ((hback.setPos p (hx _)).retest p).arbitrate

theorem RecordsFit.actionEvent (h : RecordsFit s) (n : SlotNo) (code field : BitVec 8) :
    RecordsFit (s.actionEvent n code field).state := by
  unfold State.actionEvent
  split
  · exact h
  · split
    · exact h
    · split
      · exact h.answerAction n _
      · unfold State.holdAction
        split
        · exact h
        · exact ((h.setSlot n (slotFieldsFit_away _ (.inl rfl) _)).leaveCall _ _).arbitrateAfter _ _
      · unfold State.swapAction
        split
        · exact h
        · split
          · exact h
          · rename_i hs; exact h.swapTaken n hs
      · unfold State.extendAction
        split
        · exact h
        · exact ((h.setSlot n (slotFieldsFit_away _ (.inr (.inl rfl)) _)).leaveCall _ _).arbitrateAfter _ _
      · unfold State.releaseAction
        split
        · exact h.freeSlot n
        · split
          · exact h
          · exact ((h.freeSlot n).leaveCall _ _).arbitrateAfter _ _

theorem RecordsFit.openTaken (h : RecordsFit s) (p : PosNo) : RecordsFit (s.openTaken p) := by
  unfold State.openTaken
  split
  · exact ((h.setPos p (x := { s.pos p with misses := 0 }) (h.2 p)).becomeReady p).arbitrate
  · exact h

theorem RecordsFit.closeTaken (h : RecordsFit s) (p : PosNo) : RecordsFit (s.closeTaken p) := by
  unfold State.closeTaken
  split
  · exact h
  · exact h.becomeClosed p
  · exact h.becomeClosed p
  · exact ((h.withdraw p).becomeClosed p).arbitrate
  · rename_i he; exact (h.closePending he).arbitrateAfter p _

theorem RecordsFit.controlEvent (h : RecordsFit s) (p : PosNo) (code : BitVec 8) :
    RecordsFit (s.controlEvent p code).state := by
  unfold State.controlEvent
  split
  · split
    · split
      · exact h
      · exact h.openTaken p
    · exact h
  · split
    · exact h.closeTaken p
    · exact h
  · exact h

/-! Window writes (R147). -/

theorem RecordsFit.raiseFault (h : RecordsFit s) (f : FaultEntry) : RecordsFit (s.raiseFault f) := by
  unfold State.raiseFault
  split
  · exact h
  · exact h

theorem RecordsFit.acknowledge (h : RecordsFit s) (named : BitVec 8) : RecordsFit (s.acknowledge named) := by
  unfold State.acknowledge
  dsimp only
  split
  · exact h
  · exact h

theorem RecordsFit.settingEffect (h : RecordsFit s) (txn : Txn) (r : Reached) (w : SettingWord) :
    RecordsFit (s.settingEffect txn r w).state := by
  have hshadowed : ∀ u : Settings, RecordsFit { s with settings := u } := fun _ => h
  unfold State.settingEffect
  dsimp only
  split
  · exact (hshadowed _).takeMode _
  · exact hshadowed _

theorem RecordsFit.rightfulEffect (h : RecordsFit s) (txn : Txn) (r : Reached) :
    RecordsFit (s.rightfulEffect txn r).state := by
  unfold State.rightfulEffect
  split
  · exact h.raiseFault _
  · split
    · exact h.acknowledge _
    · exact h.actionEvent _ _ _
    · unfold State.lineEffect
      dsimp only [State.commandEffect]
      split
      · exact h.lineEvent _ _ _
      · exact h.raiseFault _
    · exact h.controlEvent _ _
    · exact h.takeHeartbeat
    · unfold State.restartEffect
      split <;> exact h
    · exact h.settingEffect _ _ _
    · exact h.of_records rfl rfl
    · exact h.of_records rfl rfl
    · unfold State.viewEffect
      split <;> exact h
    · exact h

theorem RecordsFit.writeEffect (h : RecordsFit s) (txn : Txn) (r : Reached) : RecordsFit (s.writeEffect txn r).state := by
  unfold State.writeEffect
  split
  · exact h.rightfulEffect txn r
  · unfold State.strayEffect
    dsimp only
    split
    · exact h.raiseFault _
    · exact h.raiseFault _

/-! Ticks and expiries (R59, R89 to R94, R106, R123). -/

theorem RecordsFit.posting (h : RecordsFit s) (before : State) : RecordsFit (s.posting before) := by
  obtain ⟨posts, owed, heq⟩ := givePosts_eq (changedPosts_nodup before s)
  rw [State.posting, heq]
  exact h

theorem RecordsFit.missAt (h : RecordsFit s) (p : PosNo) : RecordsFit (s.missAt p) := by
  have hw := h.withdraw p
  unfold State.missAt
  generalize s.withdraw p = w at hw
  have hmissed : RecordsFit
      ((w.setPos p { w.pos p with misses := satInc (w.pos p).misses }).latch causeMiss) :=
    (hw.setPos p (x := { w.pos p with misses := satInc (w.pos p).misses }) (hw.2 p)).of_records rfl rfl
  dsimp only
  split
  · exact (hmissed.becomeClosed p).of_records rfl rfl
  · exact hmissed.becomeReady p

theorem RecordsFit.presentationExpires (h : RecordsFit s) (n : SlotNo) : RecordsFit (s.presentationExpires n) := by
  unfold State.presentationExpires
  split
  · split
    · exact (h.missAt _).arbitrate.posting s
    · exact h
  · exact h

theorem RecordsFit.offerExpires (h : RecordsFit s) (n : SlotNo) : RecordsFit (s.offerExpires n) := by
  unfold State.offerExpires
  split
  · split
    · exact (h.withdraw _).arbitrate.posting s
    · exact h
  · exact h

theorem RecordsFit.recallExpiry (h : RecordsFit s) (n : SlotNo) (d : Disp) : RecordsFit (s.recallExpiry n d) := by
  unfold State.recallExpiry
  split
  · exact (h.recallSlot n).arbitrate.posting s
  · exact h

theorem RecordsFit.wrapUpExpires (h : RecordsFit s) (p : PosNo) : RecordsFit (s.wrapUpExpires p) := by
  unfold State.wrapUpExpires
  split
  · exact (h.becomeReady p).arbitrate.posting s
  · exact h

theorem RecordsFit.supervisionExpires (h : RecordsFit s) : RecordsFit s.supervisionExpires := by
  unfold State.supervisionExpires
  split
  · exact h.lapse.posting s
  · exact h

theorem RecordsFit.ageSlot (h : RecordsFit s) (n : SlotNo) : RecordsFit (s.ageSlot n) := by
  unfold State.ageSlot
  split
  · rename_i hl
    exact h.setSlot n ((h.1 n).elapsed (fun hfree => by simp [hfree, Disp.isListed] at hl) _)
  · exact h

theorem RecordsFit.ageListed (h : RecordsFit s) : RecordsFit s.ageListed :=
  foldl_keeps (P := RecordsFit) (fun _ e hu => hu.ageSlot e.slot) s.answerList h

theorem RecordsFit.rescore (h : RecordsFit s) : RecordsFit s.rescore := h.of_records rfl rfl

theorem RecordsFit.queueSecond (h : RecordsFit s) : RecordsFit s.queueSecond := by
  have hmark : RecordsFit { s with secondAtQueue := false } := h
  unfold State.queueSecond
  split
  · exact hmark.ageListed.rescore.arbitrate.posting s
  · exact h

theorem RecordsFit.slotSecond (h : RecordsFit s) : RecordsFit s.slotSecond := by
  unfold State.slotSecond
  split
  · exact h.mapSlots fun _ hv => hv.aged
  · exact h

/-! The Start-Up Sequencer (chapter 12). -/

theorem recordsFit_resetBlocks (s : State) (cause : ResetCause) (phase : Seq) : RecordsFit (s.resetBlocks cause phase) := by
  refine ⟨fun n => ?_, fun p => ?_⟩
  · have hslot : (s.resetBlocks cause phase).slot n = Slot.empty := Vector.getElem_replicate ..
    rw [hslot]
    exact slotFieldsFit_empty
  · have hpos : (s.resetBlocks cause phase).pos p = Position.empty := Vector.getElem_replicate ..
    rw [hpos]
    exact positionFieldsFit_bare Position.empty .closed

theorem RecordsFit.openingStep (h : RecordsFit s) : RecordsFit s.openingStep := by
  unfold State.openingStep
  split
  · exact h
  · exact h

theorem RecordsFit.fillStep (h : RecordsFit s) : RecordsFit s.fillStep := by
  unfold State.fillStep
  split
  · exact h
  · exact h

theorem RecordsFit.sweepSettingStep (h : RecordsFit s) : RecordsFit s.sweepSettingStep := by
  cases hst : s.stage with
  | settings k => rw [sweepSettingStep_bringWord hst]; exact h
  | _ => rw [State.sweepSettingStep, hst]; exact h

theorem RecordsFit.adoptStep (h : RecordsFit s) : RecordsFit s.adoptStep := by
  cases hst : s.stage with
  | adopting n =>
    obtain ⟨la, fa, ov, m, u, heq⟩ := adoptStep_eq hst
    rw [heq]
    exact h.setSlot n (slotStarts_swept s n).fields
  | _ => rw [State.adoptStep, hst]; exact h

theorem RecordsFit.closingStep (h : RecordsFit s) : RecordsFit s.closingStep := by
  by_cases hst : s.stage = .closing
  · obtain ⟨m, heq⟩ := closingStep_eq hst
    rw [heq]
    exact h
  · rw [State.closingStep, if_neg hst]
    exact h

theorem RecordsFit.enterRun (h : RecordsFit s) : RecordsFit s.enterRun := by
  have hentered : RecordsFit s.entered := h.mapSlots fun _ hv => hv.armAdopted s
  rw [enterRun_eq]
  split
  · exact RecordsFit.arbitrate hentered
  · exact hentered.arbitrate

theorem stepInvariant_recordsFit : StepInvariant RecordsFit where
  unseen _ _ _ _ _ _ _ _ _ _ h := h
  store _ _ _ _ h := h
  powerUp _ _ h := h
  reset s cause phase _ := recordsFit_resetBlocks s cause phase
  effect _ txn r h := h.writeEffect txn r
  presentationExpires _ n h := h.presentationExpires n
  offerExpires _ n h := h.offerExpires n
  recallExpiry _ n d h := h.recallExpiry n d
  wrapUpExpires _ p h := h.wrapUpExpires p
  supervisionExpires _ h := h.supervisionExpires
  queueSecond _ h := h.queueSecond
  slotSecond _ h := h.slotSecond
  tick _ h := h
  openingStep _ h := h.openingStep
  fillStep _ h := h.fillStep
  sweepSettingStep _ h := h.sweepSettingStep
  adoptStep _ h := h.adoptStep
  closingStep _ h := h.closingStep
  enterRun _ h := h.enterRun

end

end Sys2Proof.Safety

namespace Sys2Proof.Machine

open Sys2Proof.Safety

/-- Settles O8: each move of a slot or position record makes one that fits. -/
theorem stepKeepsRecordsFitting : Obligations.StepKeepsRecordsFitting :=
  fun _ _ h hstep => stepInvariant_recordsFit.step h hstep

end Sys2Proof.Machine
end

section
/-! PROOFS. The step, the state after power-on, traffic that waits, and the sequencer's writes before the sweep and after
it. -/

namespace Sys2Proof.Machine

open Sys2Proof.Safety

/-! The step (R99, R100). -/

/-- Settles O1. -/
theorem stepRunsTheFrontCommand : Obligations.StepRunsTheFrontCommand := fun _ _ _ => rfl

theorem step_idle {s : State} (h : s.pending = []) : step s = .next s.clkref := by rw [step, h]

/-- The divisor of each REFSEL code (R99). -/
theorem prescalerDivisor_eq : ∀ refsel : BitVec 2, prescalerDivisor refsel =
    if refsel = 0 then 204800 else if refsel = 1 then 409600 else 819200 := by decide

/-- Settles O2: `clkref` compares the prescaler with the divisor of `prescalerDivisor_eq`. -/
theorem idleStepCountsOneReferenceCycle : Obligations.IdleStepCountsOneReferenceCycle := by
  intro s hidle
  rw [step_idle hidle, State.clkref, prescalerDivisor_eq]
  exact ⟨fun hbelow => congrArg Host.Outcome.next (if_pos hbelow),
    fun htop => congrArg Host.Outcome.next (if_neg (Nat.not_lt.2 htop))⟩

/-- Power-on is a reset of the blocks (R189). -/
theorem reset_eq_resetBlocks : State.reset = State.reset.resetBlocks .power .fill := rfl

/-- Settles O11: the call state as after any reset, and the other invariants of values fixed at power-on. -/
theorem resetHasEveryInvariant : Obligations.ResetHasEveryInvariant := by
  have hcalls : CallStateAgrees State.reset := agrees_resetBlocks State.reset .power (by decide)
  refine ⟨rfl, settingsInRange_default, ⟨by decide, fun _ => rfl⟩, ⟨by decide, by decide, fun e he => ?_⟩, fun _ _ => rfl,
    hcalls, trivial⟩
  simp [State.reset] at he

/-! Traffic that waits (R132, R167). -/

/-- Settles O15: a transaction on the free bus waits for RUN, and behind another it waits its turn. -/
theorem waitingTrafficIsHeldInOrder : Obligations.WaitingTrafficIsHeldInOrder := by
  refine ⟨fun c s txn off hc hoff hseq hheld hbus => ?_, fun c s txn hc hwaits => ?_⟩
  · rw [exec_bus s c hc, arrive_of_free (by exact hheld) (by exact hbus), take_before_run (by exact hseq) (by exact hoff)]
  · rw [exec_bus s c hc, State.arrive, if_pos]
    simpa [State.busBusy] using hwaits

/-! Words the sequencer writes (R190, R191, R195). -/

section
variable {s : State}

theorem read_putWord_ne (off : Offset) (v : Word32) {a : Nat} (ha : a / 4 ≠ (s.addr off).toNat) :
    (s.putWord off v).mem.read a = s.mem.read a := Memory.read_writeWord_ne s.mem _ fullLanes v ha

theorem read_putWords_ne {words : List Post} {a : Nat} (ha : ∀ off ∈ words.map Post.offset, a / 4 ≠ (s.addr off).toNat) :
    (s.putWords words).mem.read a = s.mem.read a := by
  induction words generalizing s with
  | nil => rfl
  | cons e words ih =>
    rw [List.map_cons, List.forall_mem_cons] at ha
    exact (ih (s := s.putWord e.offset e.value) ha.2).trans (read_putWord_ne e.offset e.value ha.1)

theorem openingStep_opening (hst : s.stage = .opening) :
    s.openingStep = { s.putWord 0x010 (modeStatusWord .day .day false s.resetCause s.seq) with
      stage := if s.seq = .fill then .filling 0 else .settings 0 } := by
  rw [State.openingStep, if_pos hst]

theorem fillStep_filling {n : SlotNo} (hst : s.stage = .filling n) :
    s.fillStep = { s.putWord (slotOffset n 2) (dispositionWord Slot.empty) with
      stage := if n = 127 then .closing else .filling (n + 1) } := by
  rw [State.fillStep, hst]

end

/-- The DISPOSITION word of a FREE slot (R191). -/
theorem dispositionWord_empty : dispositionWord Slot.empty = 0x0000FFF0#32 := rfl

/-- The STATUS word of a position CLOSED with no call (R195). -/
theorem statusWord_empty : statusWord Position.empty none 0 = 0xFFFF0000#32 := rfl

theorem closingWords_offsets_subset (s : State) : (closingWords s).map Post.offset ⊆
    [0x010, 0x011, 0x014, 0x015, 0x016, 0x0C1, 0x0D1, 0x0E1, 0x0F1] := by
  rw [closingWords_offsets]
  decide

/-- Settles O16: each access writes the words it names, and the bytes of the others are left. -/
theorem fillAndClosingWritesSetThePostedWords : Obligations.FillAndClosingWritesSetThePostedWords := by
  refine ⟨⟨fun s hst hwf => ?_, fun s n hst hwf => ?_⟩, fun s hst hwf => ?_⟩
  · exact ⟨_, congrArg Host.Outcome.next (openingStep_opening hst), rfl, readWord_putWord_same hwf _ _,
      fun _ => read_putWord_ne _ _⟩
  · exact ⟨_, congrArg Host.Outcome.next (fillStep_filling hst), rfl,
      (readWord_putWord_same hwf _ _).trans dispositionWord_empty, fun _ => read_putWord_ne _ _⟩
  · obtain ⟨m, heq⟩ := closingStep_eq hst
    have hmem : m = (s.putWords (closingWords s)).mem := by rw [← mem_closingStep hst, heq]
    obtain ⟨-, hin, -⟩ := readWord_putWords hwf (closingWords_nodup s)
    rw [← hmem, closingWords] at hin
    obtain ⟨hstatus, hrest⟩ := List.forall_mem_append.1 hin
    simp only [List.forall_mem_cons] at hrest
    obtain ⟨h014, h015, h016, h011, h010, -⟩ := hrest
    refine ⟨_, congrArg Host.Outcome.next heq, rfl, fun p => ?_, h014, h015, h016, h011, h010, fun a ha => ?_⟩
    · exact (hstatus _ (List.mem_map_of_mem (mem_allPositions p))).trans statusWord_empty
    · have hread : m.read a = s.mem.read a := by
        rw [hmem]
        exact read_putWords_ne fun off hoff => ha off (closingWords_offsets_subset s hoff)
      exact hread

end Sys2Proof.Machine
end

section
/-! PROOFS. Adoption (R193, R194): the table of DISPOSITION words, and what the sweep makes of the word found. -/

namespace Sys2Proof.Machine

open Sys2Proof.Safety

/-! Code tables (R197, R199): which codes are undefined, and what the others stand for. -/

theorem dispOfCode_eq_none : ∀ c : BitVec 4, 9 ≤ c.toNat → dispOfCode c = none := by decide

theorem posOfField_eq_none : ∀ c : BitVec 4, 4 ≤ c.toNat → c ≠ 0xF → posOfField c = none := by decide

theorem posOfField_isSome : ∀ c : BitVec 4, ¬(4 ≤ c.toNat ∧ c ≠ 0xF) → (posOfField c).isSome := by decide

theorem posOfField_none : ∀ c : BitVec 4, c.toNat = 15 → posOfField c = some none := by decide

theorem posOfField_some : ∀ c : BitVec 4, c.toNat < 4 → posOfField c = some (some (Fin.ofNat 4 c.toNat)) := by decide

theorem classFieldDefined_iff : ∀ c : BitVec 4, classFieldDefined c = true ↔ ¬(8 ≤ c.toNat ∧ c ≠ 0xF) := by decide

theorem returnKindOfField_eq_none : ∀ c : BitVec 2, c.toNat = 3 → returnKindOfField c = none := by decide

theorem returnKindOfField_isSome : ∀ c : BitVec 2, c.toNat ≠ 3 → (returnKindOfField c).isSome := by decide

theorem groupOfField_eq (c : BitVec 5) : groupOfField c = Fin.ofNat 32 c.toNat :=
  Fin.ext (Nat.mod_eq_of_lt c.isLt).symm

/-! The adoption table. -/

/-- A word with every code defined is judged by its fields. -/
theorem adoptedSlot_of_fields {w : Word32} {d : Disp} {home : Option PosNo} {kind : Option ReturnKind}
    (hd : dispOfCode (w.extractLsb' 0 4) = some d) (hp : (posOfField (w.extractLsb' 4 4)).isSome)
    (hh : posOfField (w.extractLsb' 8 4) = some home) (hk : returnKindOfField (w.extractLsb' 26 2) = some kind)
    (hc : classFieldDefined (w.extractLsb' 12 4) = true) :
    adoptedSlot w = adoptedFields d (Fin.ofNat 32 (w.extractLsb' 16 5).toNat) home kind (w.extractLsb' 21 3)
      (w.getLsbD 24) := by
  obtain ⟨p, hp⟩ := Option.isSome_iff_exists.1 hp
  rw [← groupOfField_eq]
  simp only [adoptedSlot, hd, hp, hh, hk, if_pos hc]

/-- A word with an undefined code in any field is discarded. -/
theorem adoptedSlot_eq_none {w : Word32}
    (h : (4 ≤ (w.extractLsb' 4 4).toNat ∧ w.extractLsb' 4 4 ≠ 0xF#4) ∨
      (4 ≤ (w.extractLsb' 8 4).toNat ∧ (w.extractLsb' 8 4).toNat ≠ 15) ∨
      (8 ≤ (w.extractLsb' 12 4).toNat ∧ w.extractLsb' 12 4 ≠ 0xF#4) ∨ (w.extractLsb' 26 2).toNat = 3 ∨
      9 ≤ (w.extractLsb' 0 4).toNat) : adoptedSlot w = none := by
  unfold adoptedSlot
  split
  · rename_i hd hp hh hk
    rcases h with ⟨h4, hF⟩ | ⟨h4, hF⟩ | hclass | h3 | h9
    · simp [posOfField_eq_none _ h4 hF] at hp
    · simp [posOfField_eq_none _ h4 fun hc => hF (by rw [hc]; rfl)] at hh
    · rw [if_neg]
      exact fun hc => (classFieldDefined_iff _).1 hc hclass
    · simp [returnKindOfField_eq_none _ h3] at hk
    · simp [dispOfCode_eq_none _ h9] at hd
  · rfl

/-- Settles O19: the disposition code and the return kind choose the row, the home field whether it has its home. -/
theorem adoptionTableOfDispositionWords : Obligations.AdoptionTableOfDispositionWords := by
  intro w code home kind illFormed group kept
  refine ⟨adoptedSlot_eq_none, fun hwell => ?_⟩
  simp only [illFormed, not_or] at hwell
  obtain ⟨hp, hh, hc, hk, hcode⟩ := hwell
  have hp := posOfField_isSome _ hp
  have hc := (classFieldDefined_iff _).2 hc
  obtain ⟨home', hh'⟩ : ∃ home', posOfField (w.extractLsb' 8 4) = some home' :=
    Option.isSome_iff_exists.1 (posOfField_isSome _ fun hbad => hh ⟨hbad.1, fun he => hbad.2 (BitVec.eq_of_toNat_eq he)⟩)
  obtain ⟨kind', hk'⟩ := Option.isSome_iff_exists.1 (returnKindOfField_isSome _ hk)
  have row {d : Disp} {k : Option ReturnKind} (hd : dispOfCode (w.extractLsb' 0 4) = some d)
      (hk : returnKindOfField (w.extractLsb' 26 2) = some k) : adoptedSlot w =
        adoptedFields d group home' k (w.extractLsb' 21 3) (w.getLsbD 24) := adoptedSlot_of_fields hd hp hh' hk hc
  have disp (k : Nat) (hk : code = k) : dispOfCode (w.extractLsb' 0 4) = (dispOfCode (BitVec.ofNat 4 k)) := by
    rw [← hk, BitVec.ofNat_toNat, BitVec.setWidth_eq]
  have kinds (k : Nat) (hk : kind = k) :
      returnKindOfField (w.extractLsb' 26 2) = returnKindOfField (BitVec.ofNat 2 k) := by
    rw [← hk, BitVec.ofNat_toNat, BitVec.setWidth_eq]
  refine ⟨fun h0 => row (disp 0 h0) hk', ?_, fun ⟨h2, hk0⟩ => row (disp 2 h2) (kinds 0 hk0), fun hrow h15 => ?_,
    fun hne => ?_⟩
  · rintro (h1 | ⟨h2, hk1⟩)
    · exact row (disp 1 h1) hk'
    · exact row (disp 2 h2) (kinds 1 hk1)
  · obtain rfl : none = home' := Option.some.inj ((posOfField_none _ h15).symm.trans hh')
    rcases hrow with h3 | ⟨h2, hk2⟩
    · have hcases : code = 3 ∨ code = 4 ∨ code = 5 ∨ code = 6 ∨ code = 7 ∨ code = 8 := by omega
      rcases hcases with h | h | h | h | h | h
      · exact row (disp 3 h) hk'
      · exact row (disp 4 h) hk'
      · exact row (disp 5 h) hk'
      · exact row (disp 6 h) hk'
      · exact row (disp 7 h) hk'
      · exact row (disp 8 h) hk'
    · exact row (disp 2 h2) (kinds 2 hk2)
  · have hlt : home < 4 := by omega
    obtain rfl : some (Fin.ofNat 4 home) = home' := Option.some.inj ((posOfField_some _ hlt).symm.trans hh')
    refine ⟨?_, fun h => ?_, fun h => row (disp 6 h) hk', fun h => row (disp 7 h) hk'⟩
    · rintro (h8 | ⟨h2, hk2⟩)
      · exact row (disp 8 h8) hk'
      · exact row (disp 2 h2) (kinds 2 hk2)
    · have hcases : code = 3 ∨ code = 4 ∨ code = 5 := by omega
      rcases hcases with h | h | h
      · exact row (disp 3 h) hk'
      · exact row (disp 4 h) hk'
      · exact row (disp 5 h) hk'

/-! The word found, judged and brought to the adopted value. -/

section
variable {s : State} {n : SlotNo} {v : Slot}

/-- An adopted slot starts its elapsed count afresh (R193). -/
theorem elapsed_adoptedFields {d : Disp} {g : GroupNo} {home : Option PosNo} {k : Option ReturnKind} {r : BitVec 3}
    {f : Bool} {sl : Slot} (h : adoptedFields d g home k r f = some sl) : sl.elapsed = 0 := by
  have away : ∀ d', adoptedAway d' g home r f = some sl → sl.elapsed = 0 := by
    intro d' h
    unfold adoptedAway at h
    split at h
    · rw [← Option.some.inj h]; rfl
    · simp at h
  unfold adoptedFields at h
  split at h
  · rw [← Option.some.inj h]; rfl
  · rw [← Option.some.inj h]; rfl
  · split at h
    · rw [← Option.some.inj h]; rfl
    · exact away _ h
    · simp at h
  all_goals exact away _ h

theorem elapsed_swept (s : State) (n : SlotNo) : (s.sweptSlot n).elapsed = 0 := by
  unfold State.sweptSlot
  cases h : adoptedSlot (s.mem.readWord (s.addr (slotOffset n 2))) with
  | none => rfl
  | some sl =>
    unfold adoptedSlot at h
    split at h
    · split at h
      · exact elapsed_adoptedFields h
      · simp at h
    · simp at h

/-- The word found for slot `n`, judged: a word discarded raises SWEEP_DISCARD (R193). -/
def State.sweptFault (s : State) (n : SlotNo) : State :=
  match adoptedSlot (s.mem.readWord (s.addr (slotOffset n 2))) with
  | some _ => s
  | none => s.raiseFault ⟨.sweepDiscard, none, slotOffset n 2, s.mem.readWord (s.addr (slotOffset n 2))⟩

theorem sweptFault_eq (s : State) (n : SlotNo) :
    ∃ la fa ov, s.sweptFault n = { s with latched := la, fault := fa, overflow := ov } := by
  unfold State.sweptFault
  split
  · exact ⟨s.latched, s.fault, s.overflow, rfl⟩
  · exact raiseFault_eq s _

theorem raiseFault_setSlot (s : State) (n : SlotNo) (v : Slot) (f : FaultEntry) :
    (s.setSlot n v).raiseFault f = { s.raiseFault f with slots := s.slots.set n v } := by
  unfold State.raiseFault State.setSlot
  cases s.fault <;> rfl

/-- Judging leaves the record of the slot, and a fault where the word is discarded. -/
theorem adoptStep_sweptFault (hst : s.stage = .adopting n) :
    s.adoptStep = ({ s.sweptFault n with slots := s.slots.set n (s.sweptSlot n) } : State).endAdoption n
      (s.mem.readWord (s.addr (slotOffset n 2))) := by
  unfold State.adoptStep State.sweptFault State.sweptSlot
  rw [hst]
  dsimp only
  cases adoptedSlot (s.mem.readWord (s.addr (slotOffset n 2))) with
  | some sl => rfl
  | none =>
    have hjudged := raiseFault_setSlot s n Slot.empty
      ⟨.sweepDiscard, none, slotOffset n 2, s.mem.readWord (s.addr (slotOffset n 2))⟩
    exact congrArg (fun u : State => u.endAdoption n (s.mem.readWord (s.addr (slotOffset n 2)))) hjudged

/-- A window word written only where it differs is a word brought to its value. -/
theorem putWord_unless_same (u : State) (off : Offset) (v : Word32) :
    (if v = u.mem.readWord (u.addr off) then u else u.putWord off v) =
      { u with mem := u.mem.bringWord (u.addr off) v } := by
  unfold Memory.bringWord
  split
  · rfl
  · rfl

/-- An adoption's end brings the slot's word to the adopted value, and lists the slot if it waits (R194). -/
theorem endAdoption_bringWord {j : State} (hv : j.slot n = v) :
    j.endAdoption n (j.mem.readWord (j.addr (slotOffset n 2))) = { j with
      mem := j.mem.bringWord (j.addr (slotOffset n 2)) (dispositionWord v)
      answerList := j.answerList ++ (if v.disp = .queued ∨ v.disp = .recall then [⟨n, j.score n⟩] else [])
      stage := adoptionNext n } := by
  subst hv
  unfold State.endAdoption
  simp only [isWaiting_iff]
  by_cases hw : (j.slot n).disp = .queued ∨ (j.slot n).disp = .recall
  · rw [if_pos hw, if_pos hw]
    exact congrArg (fun u : State => { u with stage := adoptionNext n })
      (putWord_unless_same (j.join n) (slotOffset n 2) (dispositionWord (j.slot n)))
  · rw [if_neg hw, if_neg hw, List.append_nil]
    exact congrArg (fun u : State => { u with stage := adoptionNext n })
      (putWord_unless_same j (slotOffset n 2) (dispositionWord (j.slot n)))

/-- The adoption of slot `n`, field by field (R193, R194). -/
theorem adoptStep_bringWord (hst : s.stage = .adopting n) : s.adoptStep = { s.sweptFault n with
    slots := s.slots.set n (s.sweptSlot n)
    answerList := s.answerList ++ (if (s.sweptSlot n).disp = .queued ∨ (s.sweptSlot n).disp = .recall then
      [⟨n, urgency (s.group (s.sweptSlot n).group) 0 (s.sweptSlot n).recalls.toNat (s.sweptSlot n).final⟩] else [])
    mem := s.mem.bringWord (s.addr (slotOffset n 2)) (dispositionWord (s.sweptSlot n))
    stage := adoptionNext n } := by
  rw [adoptStep_sweptFault hst]
  obtain ⟨la, fa, ov, heq⟩ := sweptFault_eq s n
  rw [heq]
  generalize hj : ({ s with latched := la, fault := fa, overflow := ov, slots := s.slots.set n (s.sweptSlot n) } : State) = j
  have hslot : j.slot n = s.sweptSlot n := by rw [← hj]; exact State.slot_setSlot_same s n _
  have hscore : j.score n =
      urgency (s.group (s.sweptSlot n).group) 0 (s.sweptSlot n).recalls.toNat (s.sweptSlot n).final := by
    rw [State.score, hslot, elapsed_swept, ← hj]
    rfl
  have hend := endAdoption_bringWord hslot
  rw [hscore] at hend
  subst hj
  exact hend

end

/-- Settles O18: the slot swept, its fault and its score, with a word brought to the adopted value. -/
theorem adoptionTakesOrDiscardsTheWordFound : Obligations.AdoptionTakesOrDiscardsTheWordFound := by
  intro s n hst hwf found sl
  refine ⟨s.adoptStep, rfl, ?_⟩
  rw [adoptStep_bringWord hst]
  exact ⟨rfl, Memory.readWord_bringWord_same hwf _ _, fun _ => Memory.read_bringWord_ne s.mem _⟩

end Sys2Proof.Machine
end

section
/-! PROOFS. How a position leaves a call, and when the arbiter acts: withdrawal, re-test, the wrap-up path. -/

namespace Sys2Proof.Machine

open Sys2Proof.Safety

section
variable {s : State} {p : PosNo} {m n : SlotNo}

/-! Withdrawal and re-test (R47, R88). -/

/-- The state a withdrawal of call `m` from position `p` leaves, field by field (R88). -/
theorem withdraw_presented (h : (s.pos p).presented = some m) : s.withdraw p = { s with
    slots := s.slots.set m { s.slot m with
      disp := if (s.slot m).returnKind = some .recall then .recall else .queued
      position := if (s.slot m).returnKind = some .recall then (s.slot m).home else none
      returnKind := none, breakIn := false, deadline := none, savedClass := none }
    positions := s.positions.set p { s.pos p with presented := none } } := by
  rw [State.withdraw_some h, State.returnSlot, Slot.returned_eq]
  rfl

theorem offerStands_iff {t : Class} (ht : (s.pos p).threshold = some t) :
    s.offerStands p m = true ↔ t ≤ (s.group (s.slot m).group).cls ∧ (s.pos p).stack.length < 4 := by
  simp only [State.offerStands, ht, Bool.and_eq_true, decide_eq_true_eq]
  rfl

theorem retest_presented (h : (s.pos p).presented = some m) :
    s.retest p = if s.offerStands p m then s else s.withdraw p := by simp only [State.retest, h]

theorem retest_unpresented (h : (s.pos p).presented = none) : s.retest p = s := by simp only [State.retest, h]

/-- A re-test changes nothing of a position but what is offered there. -/
theorem pos_retest (s : State) (p : PosNo) :
    (s.retest p).pos p = { s.pos p with presented := ((s.retest p).pos p).presented } := by
  unfold State.retest
  split
  · rfl
  · split
    · rfl
    · rw [State.pos_withdraw, if_pos rfl]

end

/-- Settles O35: `withdraw_presented`, and `offerStands_iff` for whether a re-test withdraws. -/
theorem withdrawalAndRetestOfAnOffer : Obligations.WithdrawalAndRetestOfAnOffer := by
  refine ⟨fun s p => ⟨State.withdraw_none, fun m => withdraw_presented⟩, fun s p m t hm ht => ⟨fun h => ?_, fun h => ?_⟩⟩
  · rw [retest_presented hm, if_pos ((offerStands_iff ht).2 h)]
  · rw [retest_presented hm, if_neg (fun hstands => h ((offerStands_iff ht).1 hstands)), withdraw_presented hm]

section
variable {s : State} {p : PosNo} {m n : SlotNo} {byHold : Bool} {top : StackEntry} {rest : List StackEntry}

/-! The wrap-up path (R38, R43, R44, R48). -/

theorem leaveCall_stacked (byHold : Bool) (h : (s.pos p).stack = top :: rest) :
    s.leaveCall p byHold = s.popStack p top rest := by simp only [State.leaveCall, h]

theorem leaveCall_unstacked (byHold : Bool) (h : (s.pos p).stack = []) :
    s.leaveCall p byHold = s.leaveEngaged p byHold := by simp only [State.leaveCall, h]

/-- Leaving ENGAGED starts with the withdrawal of a standing offer (R48). -/
theorem leaveEngaged_withdraw (s : State) (p : PosNo) (byHold : Bool) :
    (s.withdraw p).leaveEngaged p byHold = s.leaveEngaged p byHold := by
  have hpos : (s.withdraw p).pos p = { s.pos p with presented := none } := by rw [State.pos_withdraw, if_pos rfl]
  have hgone : (s.withdraw p).withdraw p = s.withdraw p := State.withdraw_none (by rw [hpos])
  unfold State.leaveEngaged
  rw [hgone, hpos, (kept_withdraw s p).settings]

theorem leaveCall_withdraw (byHold : Bool) (h : (s.pos p).stack = []) :
    s.leaveCall p byHold = (s.withdraw p).leaveCall p byHold := by
  have hstack : ((s.withdraw p).pos p).stack = [] := by rw [State.pos_withdraw, if_pos rfl]; exact h
  rw [leaveCall_unstacked byHold h, leaveCall_unstacked byHold hstack, leaveEngaged_withdraw]

/-- A close-pending position closes, which may end a drain (R43, R119). -/
theorem leaveEngaged_closes (hn : (s.pos p).presented = none) (hc : (s.pos p).closePending = true) :
    s.leaveEngaged p byHold = (s.becomeClosed p).drained := by
  rw [State.leaveEngaged, State.withdraw_none hn, if_pos hc]

theorem leaveEngaged_ready (hn : (s.pos p).presented = none) (hc : (s.pos p).closePending = false)
    (hr : byHold = true ∨ s.settings.wrapGuard = 0) : s.leaveEngaged p byHold = s.becomeReady p := by
  rw [State.leaveEngaged, State.withdraw_none hn, if_neg (by simp [hc]), if_pos (by simpa using hr)]

theorem leaveEngaged_wrapup (hn : (s.pos p).presented = none) (hc : (s.pos p).closePending = false)
    (hr : ¬(byHold = true ∨ s.settings.wrapGuard = 0)) : s.leaveEngaged p byHold = s.becomeWrapup p := by
  rw [State.leaveEngaged, State.withdraw_none hn, if_neg (by simp [hc]), if_neg (by simpa using hr)]

theorem arm_of_ne_zero {seconds : BitVec 8} (h : seconds ≠ 0) :
    s.arm seconds = some (s.callTicks + 10 * seconds.setWidth 16) := by
  rw [State.arm, armAt, if_neg h]
  rfl

/-! When the arbiter is called (R83, R96). -/

theorem positionCalls_iff (old new : Position) : positionCalls old new = true ↔
    (new.state = .ready ∧ old.state ≠ .ready) ∨ (old.presented ≠ none ∧ new.presented = none) ∨
      (old.state = .engaged ∧ new.state = .engaged ∧
        (old.talking ≠ new.talking ∨ (4 ≤ old.stack.length ∧ new.stack.length < 4))) := by
  have hdepth : Config.stackDepth = 4 := rfl
  simp [positionCalls, Option.isSome_iff_ne_none, hdepth, or_assoc, and_assoc]

/-- A position that has left ENGAGED calls the arbiter when it is READY or has lost an offer. -/
theorem positionCalls_of_left {old new : Position} (ho : old.state = .engaged) (hn : new.presented = none)
    (he : new.state ≠ .engaged) : positionCalls old new = true ↔ new.state = .ready ∨ old.presented ≠ none := by
  rw [positionCalls_iff]
  simp [ho, hn, he]

theorem arbitrateAfter_calls {old : Position} (h : positionCalls old (s.pos p) = true) :
    s.arbitrateAfter p old = s.arbitrate := if_pos h

theorem arbitrateAfter_silent {old : Position} (h : ¬positionCalls old (s.pos p) = true) :
    s.arbitrateAfter p old = s := if_neg h

/-- A position that pops its stack stays ENGAGED, with the call that was on top. -/
theorem pos_popStack (he : (s.pos p).state = .engaged) :
    ((s.popStack p top rest).pos p).state = .engaged ∧ ((s.popStack p top rest).pos p).talking = some top.slot := by
  rw [State.popStack, pos_retest, State.pos_setPos_same]
  exact ⟨he, rfl⟩

theorem state_leaveEngaged_withdrawn (hn : (s.pos p).presented = none) : ((s.leaveEngaged p byHold).pos p).state =
    if (s.pos p).closePending = true then .closed
    else if byHold = true ∨ s.settings.wrapGuard = 0 then .ready else .wrapup := by
  by_cases hc : (s.pos p).closePending = true
  · rw [leaveEngaged_closes hn hc, pos_drained, State.pos_becomeClosed, if_pos rfl, if_pos hc]
    rfl
  · rw [if_neg hc]
    by_cases hr : byHold = true ∨ s.settings.wrapGuard = 0
    · rw [leaveEngaged_ready hn (by simpa using hc) hr, State.pos_becomeReady, if_pos rfl, if_pos hr]
      rfl
    · rw [leaveEngaged_wrapup hn (by simpa using hc) hr, State.pos_becomeWrapup, if_pos rfl, if_neg hr]
      rfl

/-- What becomes of a position that leaves ENGAGED (R43, R48). -/
theorem state_leaveEngaged (s : State) (p : PosNo) (byHold : Bool) : ((s.leaveEngaged p byHold).pos p).state =
    if (s.pos p).closePending = true then .closed
    else if byHold = true ∨ s.settings.wrapGuard = 0 then .ready else .wrapup := by
  have hpos : (s.withdraw p).pos p = { s.pos p with presented := none } := by rw [State.pos_withdraw, if_pos rfl]
  rw [← leaveEngaged_withdraw, state_leaveEngaged_withdrawn (by rw [hpos]), hpos, (kept_withdraw s p).settings]

/-- Without a stacked call, the end of an offer and a move to READY call the arbiter, and nothing else does. -/
theorem leaveEngaged_calls_iff (he : (s.pos p).state = .engaged) :
    positionCalls (s.pos p) ((s.leaveEngaged p byHold).pos p) = true ↔ (s.pos p).presented ≠ none ∨
      ((s.pos p).closePending = false ∧ (byHold = true ∨ s.settings.wrapGuard = 0)) := by
  have hstate := state_leaveEngaged s p byHold
  rw [positionCalls_of_left he (presented_leaveEngaged s p byHold) (by rw [hstate]; split_ifs <;> decide), hstate,
    or_comm]
  by_cases hc : (s.pos p).closePending = true
  · simp [hc]
  · by_cases hr : byHold = true ∨ s.settings.wrapGuard = 0
    · rw [if_neg hc, if_pos hr]
      exact iff_of_true (.inr rfl) (.inr ⟨Bool.eq_false_iff.2 hc, hr⟩)
    · rw [if_neg hc, if_neg hr]
      exact or_congr_right (iff_of_false (by decide) fun h => hr h.2)

end

/-- Settles O31: `leaveCall` case by case, the arbiter's causes, and which of the ways a call is left is one of them. -/
theorem leavingACallFollowsTheWrapUpPath : Obligations.LeavingACallFollowsTheWrapUpPath := by
  refine ⟨fun s p byHold => ?_, fun s p old => ?_, fun s p byHold n he ht => ?_⟩
  · intro bare others
    refine ⟨fun top rest hst => leaveCall_stacked byHold hst,
      fun m hst hm => (leaveCall_withdraw byHold hst).trans (by rw [withdraw_presented hm]),
      fun hst hn => ⟨fun hc => ?_, fun hc hr => ?_, fun hc hh hg => ?_⟩⟩
    · rw [leaveCall_unstacked byHold hst, leaveEngaged_closes hn hc]
      rfl
    · rw [leaveCall_unstacked byHold hst, leaveEngaged_ready hn hc hr]
      rfl
    · rw [leaveCall_unstacked byHold hst, leaveEngaged_wrapup hn hc (by simpa [hh] using hg), State.becomeWrapup,
        arm_of_ne_zero hg]
      rfl
  · exact ⟨fun h => arbitrateAfter_calls ((positionCalls_iff _ _).2 h),
      fun h => arbitrateAfter_silent fun hc => h ((positionCalls_iff _ _).1 hc)⟩
  · intro left ready
    refine ⟨fun top rest hst hne => ?_, fun hst h => ?_, fun hst hn hr => ?_⟩
    · obtain ⟨hengaged, htalking⟩ := pos_popStack (top := top) (rest := rest) he
      refine arbitrateAfter_calls ((positionCalls_iff _ _).2 (.inr (.inr ⟨he, ?_⟩)))
      simp only [left, leaveCall_stacked byHold hst]
      exact ⟨hengaged, .inl (by rw [ht, htalking]; exact fun h => hne (Option.some.inj h).symm)⟩
    · refine arbitrateAfter_calls ?_
      simp only [left, leaveCall_unstacked byHold hst]
      exact (leaveEngaged_calls_iff he).2 h
    · refine arbitrateAfter_silent ?_
      simp only [left, leaveCall_unstacked byHold hst]
      exact fun hc => ((leaveEngaged_calls_iff he).1 hc).elim (absurd hn) hr

end Sys2Proof.Machine
end

section
/-! PROOFS. Line events that queue a call, move it between destinations or take it from a position. -/

namespace Sys2Proof.Machine

open Sys2Proof.Safety

section
variable {s : State} {n : SlotNo} {p : PosNo}

/-! OFFER (R17), EXT_BUSY (R25) and EXT_FREE (R26). -/

theorem offerEvent_taken {g : GroupNo} (h : (s.slot n).disp = .free) (hg : (s.group g).cls ≠ 0) :
    s.offerEvent n g =
      ⟨((((s.setSlot n (Slot.offered g)).join n).countOffered g).latch causeQueueEntry).arbitrate, .taken⟩ := by
  rw [State.offerEvent, if_pos h, if_neg hg]

/-- A call joins the list with the score of its class alone (R17, R61). -/
theorem score_offered (s : State) (n : SlotNo) (g : GroupNo) :
    (s.setSlot n (Slot.offered g)).score n = urgency (s.group g) 0 0 false := by
  rw [State.score, State.slot_setSlot_same]
  rfl

theorem extBusyEvent_taken (h : (s.slot n).disp = .extended) : s.extBusyEvent n =
    ⟨s.setSlot n ((s.slot n).away .camped (s.arm (s.group (s.slot n).group).camp)), .taken⟩ := by
  rw [State.extBusyEvent, if_pos h]

theorem extFreeEvent_taken (h : (s.slot n).disp = .camped) : s.extFreeEvent n =
    ⟨s.setSlot n ((s.slot n).away .extended (s.arm (s.group (s.slot n).group).transfer)), .taken⟩ := by
  rw [State.extFreeEvent, if_pos h]

end

/-- Settles O21: the one branch of `offerEvent` that is taken, with the score spelled. -/
theorem offerQueuesAFreeSlot : Obligations.OfferQueuesAFreeSlot := by
  intro s r path upper lock n hs hr hp hfree g hg q
  have hq : s.offerEvent n g = ⟨q.arbitrate, .taken⟩ := by
    rw [offerEvent_taken hfree hg, State.join, score_offered]
    rfl
  exact ⟨_, rfl, line_taken hs hr hp 1 upper lock q.arbitrate hq⟩

/-- Settles O25: both events move the call away with the timer of where it goes. -/
theorem extBusyAndExtFreeMoveAnExtendedCall : Obligations.ExtBusyAndExtFreeMoveAnExtendedCall := by
  intro s r path upper lock n hs hr hp moved
  exact ⟨fun h => ⟨_, rfl, line_taken hs hr hp 4 upper lock _ (extBusyEvent_taken h)⟩,
    fun h => ⟨_, rfl, line_taken hs hr hp 5 upper lock _ (extFreeEvent_taken h)⟩⟩

section
variable {s : State} {n : SlotNo} {p : PosNo}

/-! ABANDON of a call at a position (R20 to R22). -/

theorem abandonEvent_presented (hd : (s.slot n).disp = .presented) (hp : (s.slot n).position = some p) :
    s.abandonEvent n = ⟨((s.abandonWaiting n).releasePresenter p).arbitrate, .taken⟩ := by
  simp only [State.abandonEvent, hd, State.abandonPresented, hp]

theorem abandonEvent_talking (hd : (s.slot n).disp = .talking) (hp : (s.slot n).position = some p) :
    s.abandonEvent n = ⟨((s.freeSlot n).leaveCall p false).arbitrateAfter p (s.pos p), .taken⟩ := by
  simp only [State.abandonEvent, hd, State.abandonTalking, hp]

theorem abandonEvent_split (hd : (s.slot n).disp = .split) (hp : (s.slot n).position = some p) :
    s.abandonEvent n = ⟨((s.freeSlot n).setPos p { s.pos p with stack := dropEntry (s.pos p).stack n }).arbitrateAfter p
      (s.pos p), .taken⟩ := by
  simp only [State.abandonEvent, hd, State.abandonSplit, hp]

/-- A position that loses a stacked call calls the arbiter when its stack falls below 4 entries (R22, R83). -/
theorem dropEntry_calls_iff (x : Position) (n : SlotNo) :
    positionCalls x { x with stack := dropEntry x.stack n } = true ↔
      x.state = .engaged ∧ 4 ≤ x.stack.length ∧ (dropEntry x.stack n).length < 4 := by
  rw [positionCalls_iff]
  simp only [ne_eq, and_not_self, not_and_self, false_or, not_true_eq_false]
  tauto

end

/-- Settles O24: each disposition's branch of `abandonEvent`, with what becomes of the position. -/
theorem abandonOfACallAtAPositionChangesThePosition : Obligations.AbandonOfACallAtAPositionChangesThePosition := by
  refine ⟨fun s r path upper lock n p hs hr hp hd hpos => ?_, fun s r path upper lock n p hs hr hp hpos => ?_⟩
  · intro g freed
    have hdone := line_taken hs hr hp 2 upper lock _ (abandonEvent_presented hd hpos)
    refine ⟨_, rfl, fun hst => ?_, fun hst => ?_⟩
    · rw [releasePresenter_presenting (s := s.abandonWaiting n) hst] at hdone
      exact hdone
    · rw [releasePresenter_engaged (s := s.abandonWaiting n) (show (s.pos p).state ≠ .presenting by rw [hst]; decide)] at hdone
      exact hdone
  · intro freed
    refine ⟨fun hd => ⟨_, rfl, line_taken hs hr hp 2 upper lock _ (abandonEvent_talking hd hpos)⟩, fun hd => ?_⟩
    intro gone q
    have hq : q.arbitrateAfter p (s.pos p) =
        if (s.pos p).state = .engaged ∧ 4 ≤ (s.pos p).stack.length ∧ gone.stack.length < 4 then q.arbitrate else q := by
      have hgone : q.pos p = gone := State.pos_setPos_same (s.freeSlot n) p gone
      unfold State.arbitrateAfter
      rw [hgone]
      exact if_congr (dropEntry_calls_iff _ n) rfl rfl
    refine ⟨_, rfl, ?_⟩
    rw [← hq]
    exact line_taken hs hr hp 2 upper lock _ (abandonEvent_split hd hpos)

end Sys2Proof.Machine
end

section
/-! PROOFS. Attendant actions that are taken, and CONTROL commands that are refused. -/

namespace Sys2Proof.Machine

open Sys2Proof.Safety

section
variable {s : State} {n : SlotNo} {p : PosNo}

/-- The word and the owners an action leaves that is taken at the position it names (R30, R134). -/
theorem action_taken (hs : Serving s) {r : Requester} (hr : actsForConsole r = true) {path : CallPath}
    (hp : PathReaches s path n) (a : Action) {upper : BitVec 24} (hn : Names s path (upper ++ a.code) p) (lock : Bool)
    {q : State} (he : s.actionAt n p a = ⟨q, .taken⟩) :
    WriteDone s q (s.arrive (s.actionTxn r path a.code upper lock)) (s.actionTxn r path a.code upper lock)
      (slotOffset n 0) fullLanes (setLane3 (actionWord path (upper ++ a.code)) Result.taken.code) := by
  refine (action_done hs hr hp (upper ++ a.code) lock q .taken ?_).1
  rw [laneOf_zero]
  exact (actionEvent_named n a hn).trans he

/-! ANSWER at a position with no talking call (R35). -/

theorem answerAction_free (ha : (s.slot n).disp.isAnswerable = true)
    (hst : (s.pos p).state = .ready ∨ (s.pos p).state = .presenting ∨ (s.pos p).state = .wrapup) :
    s.answerAction n p = ⟨s.answerTaken n p, .taken⟩ := by
  rcases hst with h | h | h <;> simp [State.answerAction, ha, State.isEngaged, h]

/-- A position that was not ENGAGED presents nothing once it talks (R35). -/
theorem engagedWith_free {x : Position} (he : x.state ≠ .engaged) (n : SlotNo) (c : Class) :
    x.engagedWith n c = { x with
      state := .engaged, talking := some n, presented := none, misses := 0, wrapDeadline := none
      threshold := some (if c = 7 then 7 else c + 1) } := by
  have hnone : (if x.state = .engaged && decide (x.presented ≠ some n) then x.presented else none) = none :=
    if_neg (by simp [he])
  rw [Position.engagedWith, hnone, thresholdFor, satInc_three]

/-- ANSWER at a free position, field by field: there is nothing to push and no offer to re-test. -/
theorem answerTaken_free (ha : (s.slot n).disp.isAnswerable = true) (he : (s.pos p).state ≠ .engaged) :
    s.answerTaken n p = (State.arbitrate { s.clearForAnswer n p with
      slots := (s.clearForAnswer n p).slots.set n ((s.slot n).answeredAt p (s.classOf n))
      positions := (s.clearForAnswer n p).positions.set p { (s.clearForAnswer n p).pos p with
        state := .engaged, talking := some n, presented := none, misses := 0, wrapDeadline := none
        threshold := some (if s.classOf n = 7 then 7 else s.classOf n + 1) }
      readyList := withoutPos (s.clearForAnswer n p).readyList p
      answerList := if (s.slot n).disp = .held then s.answerList else s.answerList.filter fun e => decide (e.slot ≠ n)
      counters := if (s.slot n).disp = .held then s.counters else s.counters.set (s.slot n).group
        { s.counts (s.slot n).group with answered := satInc (s.counts (s.slot n).group).answered } }) := by
  have hfree : ((s.clearForAnswer n p).pos p).state ≠ .engaged := by rwa [(clearForAnswer_state_stack s n p).1]
  rw [answerTaken_seated ha (pushTalking_other hfree)]
  generalize s.clearForAnswer n p = u at hfree ⊢
  have hunoffered : ∀ (v : Slot) (al : List Listed) (ct : Vector Counters 32),
      ((u.seated n p v (s.classOf n) al ct).pos p).presented = none := by
    intro v al ct
    have hpos : (u.seated n p v (s.classOf n) al ct).pos p = (u.pos p).engagedWith n (s.classOf n) :=
      State.pos_setPos_same ..
    rw [hpos, engagedWith_free hfree]
  rw [retest_unpresented (hunoffered _ _ _), State.seated, engagedWith_free hfree]
  rfl

end

/-- Settles O27: a free position has nothing to push, and its records are those of `answerTaken_free`. -/
theorem answerEngagesAFreePosition : Obligations.AnswerEngagesAFreePosition := by
  intro s r path upper lock n p hs hr hp hn hd hst c g u q
  have ha : (s.slot n).disp.isAnswerable = true := (isAnswerable_iff _).2 hd
  have he : (s.pos p).state ≠ .engaged := by
    rcases hst with h | h | h <;> rw [h] <;> decide
  have hq : s.answerTaken n p = q.arbitrate := answerTaken_free ha he
  refine ⟨_, rfl, ?_⟩
  rw [← hq]
  exact action_taken hs hr hp .answer hn lock (answerAction_free ha hst)

section
variable {s : State} {n : SlotNo} {p : PosNo}

/-! HOLD, EXTEND and RELEASE (R37, R40 to R42). -/

theorem holdAction_taken (hd : (s.slot n).disp = .talking) (hp : (s.slot n).position = some p) :
    s.holdAction n p = ⟨s.holdTaken n p, .taken⟩ := by simp only [State.holdAction, judgeTalking_here hd hp]

theorem extendAction_taken (hd : (s.slot n).disp = .talking) (hp : (s.slot n).position = some p) :
    s.extendAction n p = ⟨s.extendTaken n p, .taken⟩ := by simp only [State.extendAction, judgeTalking_here hd hp]

theorem releaseAction_talking (hd : (s.slot n).disp = .talking) (hp : (s.slot n).position = some p) :
    s.releaseAction n p = ⟨s.releaseTaken n p, .taken⟩ := by
  rw [State.releaseAction, if_neg (by simp [hd]), judgeTalking_here hd hp]

theorem releaseAction_held (p : PosNo) (hd : (s.slot n).disp = .held) :
    s.releaseAction n p = ⟨s.freeSlot n, .taken⟩ := by rw [State.releaseAction, if_pos hd]

theorem swapAction_taken {top : StackEntry} {rest : List StackEntry} (hd : (s.slot n).disp = .talking)
    (hp : (s.slot n).position = some p) (hst : (s.pos p).stack = top :: rest) :
    s.swapAction n p = ⟨s.swapTaken n p top rest, .taken⟩ := by
  simp only [State.swapAction, judgeTalking_here hd hp, hst]

end

/-- Settles O30: each action's one branch that is taken. -/
theorem holdExtendAndReleaseMoveTheCall : Obligations.HoldExtendAndReleaseMoveTheCall := by
  refine ⟨fun s r path upper lock n p hs hr hp hd hpos => ?_, fun s r path upper lock n p hs hr hp hn hd => ?_⟩
  · intro away freed done
    exact ⟨fun hn => ⟨_, rfl, action_taken hs hr hp .hold hn lock (holdAction_taken hd hpos)⟩,
      fun hn => ⟨_, rfl, action_taken hs hr hp .extend hn lock (extendAction_taken hd hpos)⟩,
      fun hn => ⟨_, rfl, action_taken hs hr hp .release hn lock (releaseAction_talking hd hpos)⟩⟩
  · exact ⟨_, rfl, action_taken hs hr hp .release hn lock (releaseAction_held p hd)⟩

/-- Settles O32: `swapTaken_eq`, the two calls being different. -/
theorem swapExchangesTheTalkingCallAndTheTop : Obligations.SwapExchangesTheTalkingCallAndTheTop := by
  intro s r path upper lock n p top rest old hs hr hp hn hd hpos hst hne hold q
  have hq : s.swapTaken n p top rest = (q.retest p).arbitrate := swapTaken_eq hold hne
  refine ⟨_, rfl, ?_⟩
  rw [← hq]
  exact action_taken hs hr hp .swap hn lock (swapAction_taken hd hpos hst)

section
variable {s : State} {p : PosNo}

/-! CONTROL commands that are refused (R77). -/

theorem controlEvent_unknown (s : State) (p : PosNo) {code : BitVec 8} (h : code.toNat = 0 ∨ 2 < code.toNat) :
    s.controlEvent p code = ⟨s, .refusedCode⟩ := by
  unfold State.controlEvent
  split
  case h_3 => rfl
  all_goals omega

theorem controlEvent_open_unfitted (hf : ¬s.isFitted p = true) : s.controlEvent p 1 = ⟨s, .refusedPosition⟩ := by
  simp [State.controlEvent, hf]

theorem controlEvent_close_unfitted (hf : ¬s.isFitted p = true) : s.controlEvent p 2 = ⟨s, .refusedPosition⟩ := by
  simp [State.controlEvent, hf]

theorem controlEvent_open_mode (hf : s.isFitted p = true) (hm : s.actual = .night ∨ s.nightPending = true) :
    s.controlEvent p 1 = ⟨s, .refusedMode⟩ := by
  have hmode : (decide (s.actual = .night) || s.nightPending) = true := by simpa using hm
  simp [State.controlEvent, hf, hmode]

theorem isFitted_iff (s : State) (p : PosNo) : s.isFitted p = true ↔ p.val < s.fitted := decide_eq_true_iff

/-- A CONTROL write whose command is refused, by the instruction that puts it on the bus. -/
theorem control_refused (hs : Serving s) {r : Requester} (hr : actsForConsole r = true) {data : Word32} {lock : Bool}
    {i : Instr} (hi : exec i s = .next (s.arrive (s.writeTxn r (blockOffset p 0) fullLanes data lock))) {res : Result}
    (he : s.controlEvent p (laneOf data 0) = ⟨s, res⟩) :
    WriteRefused s i (s.writeTxn r (blockOffset p 0) fullLanes data lock) (blockOffset p 0)
      (setLane3 data res.code) := by
  obtain ⟨hdone, hposts⟩ := control_done hs hr p data lock s res he
  exact ⟨_, hi, (hposts rfl).1, (hposts rfl).2, hdone⟩

end

/-- Settles O36: each refusal is one case of the judgement, and `control_refused` says what a refused write leaves. -/
theorem refusedControlCommandsChangeNothing : Obligations.RefusedControlCommandsChangeNothing := by
  intro s r p upper data lock hs hr refused
  have refuse (c : Instr) (code : BitVec 8) (res : Result)
      (hc : exec c s = .next (s.arrive (s.controlTxn r p code upper lock)))
      (he : s.controlEvent p code = ⟨s, res⟩) : refused c (s.controlTxn r p code upper lock) (upper ++ code) res :=
    control_refused hs hr hc (by rw [laneOf_zero]; exact he)
  refine ⟨fun h => control_refused hs hr rfl (controlEvent_unknown s p h), fun hp => ?_, fun hp hm => ?_⟩
  · have hf : ¬s.isFitted p = true := fun h => absurd ((isFitted_iff s p).1 h) (Nat.not_lt.2 hp)
    exact ⟨refuse _ 1 _ rfl (controlEvent_open_unfitted hf), refuse _ 2 _ rfl (controlEvent_close_unfitted hf)⟩
  · exact refuse _ 1 _ rfl (controlEvent_open_mode ((isFitted_iff s p).2 hp) hm)

end Sys2Proof.Machine
end

section
/-! PROOFS. Expiries at their owners: each taken when it is due, and no change when it is not. -/

namespace Sys2Proof.Machine

open Sys2Proof.Safety

section
variable {s : State} {n : SlotNo} {p : PosNo} {d : Disp}

/-! Whether the deadline of a slot is due (R106). -/

theorem slotExpires_iff (s : State) (n : SlotNo) (d : Disp) :
    s.slotExpires n d = true ↔ s.seq = .run ∧ (s.slot n).disp = d ∧ s.expired (s.slot n).deadline = true := by
  simp [State.slotExpires, and_assoc]

theorem slotExpires_eq_false (h : s.seq ≠ .run ∨ (s.slot n).disp ≠ d ∨ s.expired (s.slot n).deadline = false) :
    s.slotExpires n d = false := by
  rw [Bool.eq_false_iff, ne_eq, slotExpires_iff]
  rintro ⟨hseq, hdisp, hdue⟩
  rcases h with h | h | h
  · exact h hseq
  · exact h hdisp
  · simp [hdue] at h

/-- An event of the owners of call state, with its posts. -/
theorem Kept.eventDone {s q : State} (h : Kept s q) : EventDone s q (q.posting s) := posting_done s q h.posts h.owed

theorem recallExpiry_due (h : s.slotExpires n d = true) :
    s.recallExpiry n d = ((s.recallSlot n).arbitrate).posting s := if_pos h

theorem presentationExpires_due (hp : (s.slot n).position = some p) (h : s.slotExpires n .presented = true)
    (hst : (s.pos p).state = .presenting) : s.presentationExpires n = ((s.missAt p).arbitrate).posting s := by
  simp [State.presentationExpires, hp, h, hst]

theorem offerExpires_due (hp : (s.slot n).position = some p) (h : s.slotExpires n .presented = true)
    (he : (s.pos p).state = .engaged) : s.offerExpires n = ((s.withdraw p).arbitrate).posting s := by
  simp [State.offerExpires, hp, h, State.isEngaged, he]

theorem wrapUpExpires_due (hr : s.seq = .run) (hst : (s.pos p).state = .wrapup)
    (h : s.expired (s.pos p).wrapDeadline = true) :
    s.wrapUpExpires p = ((s.becomeReady p).arbitrate).posting s := by
  simp [State.wrapUpExpires, hr, hst, h]

theorem wrapUpExpires_of_not
    (h : s.seq ≠ .run ∨ (s.pos p).state ≠ .wrapup ∨ s.expired (s.pos p).wrapDeadline = false) :
    s.wrapUpExpires p = s := by
  unfold State.wrapUpExpires
  rw [if_neg]
  rcases h with h | h | h <;> simp [h]

/-! The miss of a presentation expiry (R90). -/

/-- A withdrawal leaves the miss count, and of the records what the position's next state does not replace. -/
theorem withdraw_frame (s : State) (p : PosNo) : ((s.withdraw p).pos p).misses = (s.pos p).misses ∧
    (s.withdraw p).settings = s.settings ∧ (s.withdraw p).readyList = s.readyList ∧
    (s.withdraw p).latched = s.latched ∧ ∀ x, (s.withdraw p).positions.set p x = s.positions.set p x := by
  unfold State.withdraw
  split
  · exact ⟨rfl, rfl, rfl, rfl, fun _ => rfl⟩
  · refine ⟨?_, rfl, rfl, rfl, fun _ => Vector.set_set ..⟩
    rw [State.pos_setPos_same]

/-- The record of a position with one miss more (R90). -/
def Position.missed (x : Position) : Position := { x with misses := satInc x.misses }

theorem becomeClosed_replaced (w : State) (p : PosNo) (x : Position) (c : BitVec 8) :
    ((w.setPos p x).latch c).becomeClosed p = { w with
      positions := w.positions.set p (x.bare .closed), readyList := withoutPos w.readyList p
      latched := w.latched ||| c } := by
  have hpos : ((w.setPos p x).latch c).pos p = x := State.pos_setPos_same w p x
  have hset := congrArg State.positions (State.setPos_setPos w p x (x.bare .closed))
  rw [State.becomeClosed, hpos]
  exact congrArg (fun ps : Vector Position 4 => { w with
    positions := ps, readyList := withoutPos w.readyList p, latched := w.latched ||| c }) hset

theorem becomeReady_replaced (w : State) (p : PosNo) (x : Position) (c : BitVec 8) :
    ((w.setPos p x).latch c).becomeReady p = { w with
      positions := w.positions.set p (x.bare .ready), readyList := withoutPos w.readyList p ++ [p]
      latched := w.latched ||| c } := by
  have hpos : ((w.setPos p x).latch c).pos p = x := State.pos_setPos_same w p x
  have hset := congrArg State.positions (State.setPos_setPos w p x (x.bare .ready))
  rw [State.becomeReady, hpos]
  exact congrArg (fun ps : Vector Position 4 => { w with
    positions := ps, readyList := withoutPos w.readyList p ++ [p], latched := w.latched ||| c }) hset

/-- The miss count reaches the limit, and there is one (R90). -/
def State.missReaches (s : State) (p : PosNo) : Bool :=
  decide (s.settings.missLimit ≠ 0) && decide (s.settings.missLimit ≤ satInc (s.pos p).misses)

theorem missCloses_missed (w : State) (p : PosNo) (c : BitVec 8) :
    ((w.setPos p (w.pos p).missed).latch c).missCloses p = w.missReaches p := by
  have hpos : ((w.setPos p (w.pos p).missed).latch c).pos p = (w.pos p).missed := State.pos_setPos_same w p _
  rw [State.missCloses, hpos]
  rfl

/-- The state a miss leaves, field by field: the position closes at the limit, and is READY otherwise. -/
theorem missAt_eq (s : State) (p : PosNo) : s.missAt p = { s.withdraw p with
    positions := s.positions.set p { Position.empty with
      state := if s.missReaches p then .closed else .ready, misses := satInc (s.pos p).misses }
    readyList := if s.missReaches p then withoutPos s.readyList p else withoutPos s.readyList p ++ [p]
    latched := if s.missReaches p then s.latched ||| causeMiss ||| causeAutoclose else s.latched ||| causeMiss } := by
  obtain ⟨hmisses, hsettings, hready, hlatched, hset⟩ := withdraw_frame s p
  have hreaches : (s.withdraw p).missReaches p = s.missReaches p := by
    rw [State.missReaches, State.missReaches, hmisses, hsettings]
  have hmiss : s.missAt p = if s.missReaches p then
      ((((s.withdraw p).setPos p ((s.withdraw p).pos p).missed).latch causeMiss).becomeClosed p).latch causeAutoclose
      else (((s.withdraw p).setPos p ((s.withdraw p).pos p).missed).latch causeMiss).becomeReady p := by
    rw [← hreaches, ← missCloses_missed _ _ causeMiss]
    rfl
  rw [hmiss]
  cases s.missReaches p with
  | true =>
    rw [if_pos rfl, becomeClosed_replaced, hset, hready, hlatched]
    simp only [Position.bare, Position.missed, hmisses, if_true]
    rfl
  | false =>
    rw [if_neg Bool.false_ne_true, becomeReady_replaced, hset, hready, hlatched]
    simp only [Position.bare, Position.missed, hmisses]
    rfl

end

/-- Settles O43: the disposition named decides which deadline is looked at. -/
theorem recallExpiriesReturnTheCall : Obligations.RecallExpiriesReturnTheCall := by
  intro s n c d hc
  have hexec : exec c s = .next (s.recallExpiry n d) := by
    rcases hc with ⟨rfl, rfl⟩ | ⟨rfl, rfl⟩ | ⟨rfl, rfl⟩ <;> rfl
  refine ⟨fun hr hd hdue => ⟨_, hexec, ?_⟩, fun h => ?_⟩
  · rw [recallExpiry_due ((slotExpires_iff s n d).2 ⟨hr, hd, hdue⟩)]
    exact ((kept_recallSlot s n).trans (kept_arbitrate _)).eventDone
  · rw [hexec, recallExpiry_of_not (slotExpires_eq_false h)]

/-- Settles O44: `missAt_eq` is the miss, with the count of three bits spelled. -/
theorem presentationExpiryCountsAMiss : Obligations.PresentationExpiryCountsAMiss := by
  intro s n p hd hp hst hpres
  refine ⟨fun hr hdue => ?_, fun h => ?_⟩
  · intro misses closes others q
    have hq : s.missAt p = q := by
      rw [missAt_eq, State.missReaches, satInc_three]
      rfl
    refine ⟨_, rfl, ?_⟩
    rw [presentationExpires_due hp ((slotExpires_iff s n _).2 ⟨hr, hd, hdue⟩) hst, hq]
    exact (Kept.trans (hq ▸ kept_missAt s p) (kept_arbitrate q)).eventDone
  · exact congrArg Host.Outcome.next (presentationExpires_of_not (slotExpires_eq_false (h.imp_right .inr)))

/-- Settles O45: an offer that ends is withdrawn, and a guard that ends makes the position READY. -/
theorem offerAndWrapUpExpiriesCountNoMiss : Obligations.OfferAndWrapUpExpiriesCountNoMiss := by
  refine ⟨fun s n p hd hp he hpres => ⟨fun hr hdue => ⟨_, rfl, ?_⟩, fun h => ?_⟩,
    fun s p => ⟨fun hr hst hdue => ⟨_, rfl, ?_⟩, fun h => ?_⟩⟩
  · rw [offerExpires_due hp ((slotExpires_iff s n _).2 ⟨hr, hd, hdue⟩) he]
    exact ((kept_withdraw s p).trans (kept_arbitrate _)).eventDone
  · exact congrArg Host.Outcome.next (offerExpires_of_not (slotExpires_eq_false (h.imp_right .inr)))
  · rw [wrapUpExpires_due hr hst hdue]
    exact ((kept_becomeReady s p).trans (kept_arbitrate _)).eventDone
  · exact congrArg Host.Outcome.next (wrapUpExpires_of_not h)

end Sys2Proof.Machine
end

section
/-! PROOFS. The second tick at its two owners (R10, R59). -/

namespace Sys2Proof.Machine

open Sys2Proof.Safety

section
variable {s : State} {n : SlotNo}

/-- A 12-bit count one higher, holding at 4095 (R10, R59). -/
theorem satInc_twelve (x : BitVec 12) : satInc x = if x = 4095 then 4095 else x + 1 := by
  by_cases h : x = 4095
  · subst h; rfl
  · rw [if_neg h, satInc, if_neg (by simpa using h)]

/-! The Answer Queue (R59). -/

theorem slot_ageSlot (s : State) (m n : SlotNo) : (s.ageSlot m).slot n =
    if n = m ∧ (s.slot n).disp.isListed = true then { s.slot n with elapsed := satInc (s.slot n).elapsed }
    else s.slot n := by
  unfold State.ageSlot
  by_cases hn : n = m
  · subst hn
    split
    · rename_i hl; rw [State.slot_setSlot_same, if_pos ⟨rfl, hl⟩]
    · rename_i hl; rw [if_neg fun h => hl h.2]
  · have hother : ¬(n = m ∧ (s.slot n).disp.isListed = true) := fun h => hn h.1
    rw [if_neg hother]
    split
    · exact State.slot_setSlot_ne s _ (Ne.symm hn)
    · rfl

/-- Each slot of a list without repetition waits one second more, once (R59, step 1). -/
theorem slot_foldl_ageSlot (l : List Listed) (hl : (l.map Listed.slot).Nodup) (s : State) (n : SlotNo) :
    (l.foldl (fun t e => t.ageSlot e.slot) s).slot n =
      if n ∈ l.map Listed.slot ∧ (s.slot n).disp.isListed = true then
        { s.slot n with elapsed := satInc (s.slot n).elapsed } else s.slot n := by
  induction l generalizing s with
  | nil => simp
  | cons e l ih =>
    rw [List.map_cons, List.nodup_cons] at hl
    obtain ⟨hnew, hrest⟩ := hl
    rw [List.foldl_cons, ih hrest, slot_ageSlot, List.map_cons]
    by_cases hn : n = e.slot
    · subst hn
      simp only [hnew, false_and, if_false, true_and, List.mem_cons, true_or]
    · simp only [hn, false_and, if_false, List.mem_cons, false_or]

/-- The listed slots, and no others, wait one second more (R53, R59). -/
theorem slot_ageListed (h : ListFollows s) (n : SlotNo) : s.ageListed.slot n =
    if (s.slot n).disp.isListed = true then { s.slot n with elapsed := satInc (s.slot n).elapsed } else s.slot n := by
  rw [State.ageListed, slot_foldl_ageSlot _ h.1]
  exact if_congr (by rw [h.2, and_self_iff]) rfl rfl

/-- Ageing leaves what else a score is made of. -/
theorem score_ageListed (h : ListFollows s) (n : SlotNo) : s.ageListed.score n = urgency (s.group (s.slot n).group)
    (s.ageListed.slot n).elapsed.toNat (s.slot n).recalls.toNat (s.slot n).final := by
  obtain ⟨sl, heq⟩ := ageListed_eq s
  have hgroup : ∀ g, s.ageListed.group g = s.group g := by
    intro g
    rw [heq]
    rfl
  rw [State.score, hgroup, slot_ageListed h]
  split
  · rfl
  · rfl

theorem queueSecond_taken (hr : s.seq = .run) (hmark : s.secondAtQueue = true) :
    s.queueSecond = ({ s with secondAtQueue := false }.ageListed.rescore.arbitrate).posting s := by
  simp [State.queueSecond, hr, hmark]

theorem queueSecond_of_not (hmark : s.secondAtQueue = false) : s.queueSecond = s := by
  simp [State.queueSecond, hmark]

/-! The Slot Controller (R10). -/

theorem agesAtSlot_iff (d : Disp) : d.agesAtSlot = true ↔
    d = .talking ∨ d = .split ∨ d = .held ∨ d = .extended ∨ d = .camped := by
  cases d <;> simp [Disp.agesAtSlot]

theorem slotSecond_taken (hr : s.seq = .run) (hmark : s.secondAtSlots = true) :
    s.slotSecond = { s with secondAtSlots := false, slots := mapVec Slot.aged s.slots } := by
  simp [State.slotSecond, hr, hmark]

theorem slotSecond_of_not (hmark : s.secondAtSlots = false) : s.slotSecond = s := by
  simp [State.slotSecond, hmark]

end

/-- Settles O42: the Answer Queue ages each listed slot once, and the Slot Controller ages by disposition. -/
theorem secondTicksAgeTheCalls : Obligations.SecondTicksAgeTheCalls := by
  refine ⟨fun s hr hlist => ⟨fun hmark => congrArg Host.Outcome.next (queueSecond_of_not hmark), fun hmark => ?_⟩,
    fun s hr => ⟨fun hmark => congrArg Host.Outcome.next (slotSecond_of_not hmark), fun hmark =>
      ⟨_, congrArg Host.Outcome.next (slotSecond_taken hr hmark), rfl, fun n => ?_⟩⟩⟩
  · have hlist' : ListFollows { s with secondAtQueue := false } := hlist
    have hslot := slot_ageListed hlist'
    have hscore := score_ageListed hlist'
    obtain ⟨sl, heq⟩ := ageListed_eq { s with secondAtQueue := false }
    rw [heq] at hslot hscore
    refine ⟨({ s with secondAtQueue := false, slots := sl } : State).rescore, _,
      congrArg Host.Outcome.next (queueSecond_taken hr hmark), ?_, rfl, fun n => ?_, ?_⟩
    · rw [heq]
      exact posting_done s _ (kept_arbitrate _).posts (kept_arbitrate _).owed
    · rw [← satInc_twelve]
      exact hslot n
    · exact List.map_congr_left fun e _ => congrArg (Listed.mk e.slot) (hscore e.slot)
  · have hslot : ({ s with secondAtSlots := false, slots := mapVec Slot.aged s.slots } : State).slot n = (s.slot n).aged :=
      mapVec_get ..
    rw [hslot, Slot.aged, ← satInc_twelve]
    exact if_congr (agesAtSlot_iff _) rfl rfl

end Sys2Proof.Machine
end

section
/-! PROOFS. A call tick: what was left untaken, in the order of `dueCommands`, and then the counters. -/

namespace Sys2Proof.Machine

open Sys2Proof.Safety

/-! Running commands in turn. -/

theorem runAll_append (s : State) (l k : List Instr) : runAll s (l ++ k) = (runAll s l).bind (runAll · k) := by
  induction l generalizing s with
  | nil => rfl
  | cons c l ih =>
    rw [List.cons_append, runAll, runAll]
    split
    · exact ih _
    · rfl

theorem runAll_flatMap {α : Type} {g : α → List Instr} {f : State → α → State}
    (h : ∀ s a, runAll s (g a) = some (f s a)) (l : List α) (s : State) :
    runAll s (l.flatMap g) = some (l.foldl f s) := by
  induction l generalizing s with
  | nil => rfl
  | cons a l ih => rw [List.flatMap_cons, runAll_append, h, Option.bind_some, ih, List.foldl_cons]

/-! The expiries of one slot (R9): of the five commands, those of its disposition are the ones that can be due. -/

section
variable {s t : State} {n : SlotNo} {p : PosNo} {d : Disp}

/-- Slot `n`, if listed in `s`, is listed in `t`: it waits or is presented. -/
def StaysListed (n : SlotNo) (s t : State) : Prop :=
  (s.slot n).disp.isListed = true → (t.slot n).disp.isListed = true

theorem isListed_returned (sl : Slot) : sl.returned.disp.isListed = true := by
  unfold Slot.returned
  split
  · rfl
  · rfl

theorem staysListed_withdraw (s : State) (n : SlotNo) (p : PosNo) : StaysListed n s (s.withdraw p) := by
  intro h
  rw [State.slot_withdraw]
  split
  · exact isListed_returned _
  · exact h

theorem staysListed_presentAll (n : SlotNo) (k : Nat) (s : State) : StaysListed n s (State.presentAll k s) := by
  induction k generalizing s with
  | zero => exact id
  | succ k ih =>
    unfold State.presentAll
    split
    · refine fun h => ih _ ?_
      rw [State.slot_presentTo]
      split
      · rfl
      · exact h
    · exact id

theorem staysListed_offerAll (n : SlotNo) (k : Nat) (s : State) : StaysListed n s (State.offerAll k s) := by
  induction k generalizing s with
  | zero => exact id
  | succ k ih =>
    unfold State.offerAll
    split
    · split
      · split
        · refine fun h => ih _ ?_
          rw [State.slot_offerTo]
          split
          · rfl
          · exact h
        · exact id
      · exact id
    · exact id

theorem staysListed_arbitrate (s : State) (n : SlotNo) : StaysListed n s s.arbitrate :=
  fun h => staysListed_offerAll n 4 _ (staysListed_presentAll n _ s h)

theorem staysListed_posting (before q : State) (n : SlotNo) : StaysListed n q (q.posting before) := by
  obtain ⟨posts, owed, heq⟩ := givePosts_eq (s := q) (changedPosts_nodup before q)
  rw [State.posting, heq]
  exact id

theorem staysListed_missAt (s : State) (n : SlotNo) (p : PosNo) : StaysListed n s (s.missAt p) := by
  rw [missAt_eq]
  exact staysListed_withdraw s n p

theorem staysListed_presentationExpires (s : State) (n : SlotNo) : StaysListed n s (s.presentationExpires n) := by
  unfold State.presentationExpires
  split
  · split
    · exact fun h => staysListed_posting s _ n (staysListed_arbitrate _ n (staysListed_missAt s n _ h))
    · exact id
  · exact id

theorem staysListed_offerExpires (s : State) (n : SlotNo) : StaysListed n s (s.offerExpires n) := by
  unfold State.offerExpires
  split
  · split
    · exact fun h => staysListed_posting s _ n (staysListed_arbitrate _ n (staysListed_withdraw s n _ h))
    · exact id
  · exact id

/-- A recall expiry leaves the slot as it is, or in the list. -/
theorem recallExpiry_cases (s : State) (n : SlotNo) (d : Disp) :
    s.recallExpiry n d = s ∨ ((s.recallExpiry n d).slot n).disp.isListed = true := by
  unfold State.recallExpiry
  split
  · refine .inr (staysListed_posting s _ n (staysListed_arbitrate _ n ?_))
    have hslot : (s.recallSlot n).slot n = (s.slot n).recalled (s.group (s.slot n).group).limit :=
      State.slot_setSlot_same ..
    rw [hslot]
    rfl
  · exact .inl rfl

theorem recallExpiry_of_disp (h : (s.slot n).disp ≠ d) : s.recallExpiry n d = s :=
  recallExpiry_of_not (slotExpires_eq_false (.inr (.inl h)))

theorem recallExpiry_of_listed (h : (s.slot n).disp.isListed = true) (hd : d.isListed = false) :
    s.recallExpiry n d = s :=
  recallExpiry_of_disp fun e => by simp [e, hd] at h

theorem recallExpiry_recallExpiry {d' : Disp} (hd : (s.slot n).disp ≠ d') (hd' : d'.isListed = false) :
    (s.recallExpiry n d).recallExpiry n d' = s.recallExpiry n d := by
  rcases recallExpiry_cases s n d with h | h
  · rw [h, recallExpiry_of_disp hd]
  · exact recallExpiry_of_listed h hd'

theorem presentedExpires_of_disp (h : (s.slot n).disp ≠ .presented) :
    (s.presentationExpires n).offerExpires n = s := by
  have hnot := slotExpires_eq_false (s := s) (n := n) (.inr (.inl h))
  rw [presentationExpires_of_not hnot, offerExpires_of_not hnot]

/-- The deadline of a slot is taken by the five commands in turn, whichever its disposition makes it. -/
theorem slotDue_eq (s : State) (n : SlotNo) : s.slotDue n =
    ((((s.presentationExpires n).offerExpires n).recallExpiry n .held).recallExpiry n .extended).recallExpiry n
      .camped := by
  cases hd : (s.slot n).disp with
  | presented =>
    have hlisted := staysListed_offerExpires _ n (staysListed_presentationExpires s n (by rw [hd]; rfl))
    simp only [State.slotDue, hd, recallExpiry_of_listed hlisted (d := .held) rfl,
      recallExpiry_of_listed hlisted (d := .extended) rfl, recallExpiry_of_listed hlisted (d := .camped) rfl]
  | held =>
    simp only [State.slotDue, hd, presentedExpires_of_disp (s := s) (n := n) (by simp [hd]),
      recallExpiry_recallExpiry (s := s) (n := n) (d := .held) (d' := .extended) (by simp [hd]) rfl,
      recallExpiry_recallExpiry (s := s) (n := n) (d := .held) (d' := .camped) (by simp [hd]) rfl]
  | extended =>
    simp only [State.slotDue, hd, presentedExpires_of_disp (s := s) (n := n) (by simp [hd]),
      recallExpiry_of_disp (s := s) (n := n) (d := .held) (by simp [hd]),
      recallExpiry_recallExpiry (s := s) (n := n) (d := .extended) (d' := .camped) (by simp [hd]) rfl]
  | camped =>
    simp only [State.slotDue, hd, presentedExpires_of_disp (s := s) (n := n) (by simp [hd]),
      recallExpiry_of_disp (s := s) (n := n) (d := .held) (by simp [hd]),
      recallExpiry_of_disp (s := s) (n := n) (d := .extended) (by simp [hd])]
  | _ =>
    simp only [State.slotDue, hd, presentedExpires_of_disp (s := s) (n := n) (by simp [hd]),
      recallExpiry_of_disp (s := s) (n := n) (d := .held) (by simp [hd]),
      recallExpiry_of_disp (s := s) (n := n) (d := .extended) (by simp [hd]),
      recallExpiry_of_disp (s := s) (n := n) (d := .camped) (by simp [hd])]

/-- What was left untaken is taken by the commands of `dueCommands` (R106). -/
theorem runAll_dueCommands (s : State) : runAll s dueCommands = some s.takeDue := by
  have hslot (s : State) (n : SlotNo) : runAll s [.presentationExpiry n, .breakInOfferExpiry n, .holdRecallExpiry n,
      .transferRecallExpiry n, .campRecallExpiry n] = some (s.slotDue n) := congrArg some (slotDue_eq s n).symm
  have hpositions (s : State) : runAll s (allPositions.map .wrapUpExpiry) =
      some (allPositions.foldl State.wrapUpExpires s) := by
    rw [← List.flatMap_pure_eq_map]
    exact runAll_flatMap (f := State.wrapUpExpires) (fun _ _ => rfl) allPositions s
  rw [dueCommands, runAll_append, runAll_flatMap hslot, Option.bind_some, runAll_append, hpositions, Option.bind_some]
  rfl

/-! The Call Clock while what is due is taken, and the marks of the second tick. -/

/-- The Call Clock's counters and the sequencer's state, which no owner of call state changes. -/
def State.clockPart (s : State) := (s.seq, s.callTicks, s.divider, s.cadence)

theorem Kept.clockPart_eq (h : Kept s t) : t.clockPart = s.clockPart := by
  rw [State.clockPart, State.clockPart, h.seq, h.callTicks, h.divider, h.cadence]

/-- A property of the fields that no owner of call state holds is kept by every event of ticks and deadlines, if
posting and the marks of the second tick keep it. -/
theorem DueInvariant.of_kept {P : State → Prop} (hkept : ∀ s t, Kept s t → P s → P t)
    (hposting : ∀ s q, P q → P (q.posting s))
    (hmarks : ∀ (s : State) (sl : Vector Slot 128) (atQueue atSlots : Bool), P s →
      P { s with slots := sl, secondAtQueue := atQueue, secondAtSlots := atSlots }) : DueInvariant P where
  presentationExpires s n h := by
    unfold State.presentationExpires
    split
    · split
      · exact hposting s _ (hkept _ _ ((kept_missAt s _).trans (kept_arbitrate _)) h)
      · exact h
    · exact h
  offerExpires s n h := by
    unfold State.offerExpires
    split
    · split
      · exact hposting s _ (hkept _ _ ((kept_withdraw s _).trans (kept_arbitrate _)) h)
      · exact h
    · exact h
  recallExpiry s n d h := by
    unfold State.recallExpiry
    split
    · exact hposting s _ (hkept _ _ ((kept_recallSlot s n).trans (kept_arbitrate _)) h)
    · exact h
  wrapUpExpires s p h := by
    unfold State.wrapUpExpires
    split
    · exact hposting s _ (hkept _ _ ((kept_becomeReady s p).trans (kept_arbitrate _)) h)
    · exact h
  supervisionExpires s h := by
    unfold State.supervisionExpires
    split
    · exact hposting s _ (hkept _ _ (kept_lapse s) h)
    · exact h
  queueSecond s h := by
    unfold State.queueSecond
    split
    · obtain ⟨sl, heq⟩ := ageListed_eq { s with secondAtQueue := false }
      rw [heq]
      have hrescored : Kept { s with secondAtQueue := false, slots := sl }
          ({ s with secondAtQueue := false, slots := sl } : State).rescore := by constructor <;> rfl
      exact hposting s _ (hkept _ _ (hrescored.trans (kept_arbitrate _)) (hmarks s sl false s.secondAtSlots h))
    · exact h
  slotSecond s h := by
    unfold State.slotSecond
    split
    · exact hmarks s _ s.secondAtQueue false h
    · exact h

theorem dueInvariant_clockPart (c : Seq × Tick × Fin 10 × Fin 40) : DueInvariant fun u => u.clockPart = c :=
  .of_kept (fun _ _ hk h => hk.clockPart_eq.trans h)
    (fun s q h => by
      obtain ⟨posts, owed, heq⟩ := givePosts_eq (s := q) (changedPosts_nodup s q)
      rw [State.posting, heq]
      exact h)
    fun _ _ _ _ h => h

theorem clockPart_takeDue (s : State) : s.takeDue.clockPart = s.clockPart :=
  (dueInvariant_clockPart s.clockPart).takeDue rfl

theorem secondAtQueue_queueSecond (hr : s.seq = .run) : s.queueSecond.secondAtQueue = false := by
  cases hmark : s.secondAtQueue with
  | false => rw [queueSecond_of_not hmark, hmark]
  | true =>
    rw [queueSecond_taken hr hmark]
    obtain ⟨sl, heq⟩ := ageListed_eq { s with secondAtQueue := false }
    obtain ⟨posts, owed, hposts⟩ := givePosts_eq
      (s := { s with secondAtQueue := false }.ageListed.rescore.arbitrate) (changedPosts_nodup s _)
    rw [State.posting, hposts, heq]
    exact (kept_arbitrate _).secondAtQueue

theorem secondAtQueue_slotSecond (s : State) : s.slotSecond.secondAtQueue = s.secondAtQueue := by
  unfold State.slotSecond
  split
  · rfl
  · rfl

theorem secondAtSlots_slotSecond (hr : s.seq = .run) : s.slotSecond.secondAtSlots = false := by
  cases hmark : s.secondAtSlots with
  | false => rw [slotSecond_of_not hmark, hmark]
  | true => rw [slotSecond_taken hr hmark]

/-- Once what is due has been taken in RUN, no second tick waits at its owner. -/
theorem marks_takeDue (hr : s.seq = .run) :
    s.takeDue.secondAtQueue = false ∧ s.takeDue.secondAtSlots = false := by
  have seq_of {u : State} (h : u.clockPart = s.clockPart) : u.seq = .run := (congrArg Prod.fst h).trans hr
  have hP := dueInvariant_clockPart s.clockPart
  have hpositions : (allPositions.foldl State.wrapUpExpires (allSlots.foldl State.slotDue s)).clockPart = s.clockPart :=
    foldl_keeps (P := fun u => u.clockPart = s.clockPart) hP.wrapUpExpires _
      (foldl_keeps (P := fun u => u.clockPart = s.clockPart) (fun _ n h => hP.slotDue h n) _ rfl)
  have hlapsed := hP.supervisionExpires _ hpositions
  unfold State.takeDue
  generalize (allPositions.foldl State.wrapUpExpires (allSlots.foldl State.slotDue s)).supervisionExpires = u at hlapsed
  rw [secondAtQueue_slotSecond]
  exact ⟨secondAtQueue_queueSecond (seq_of hlapsed), secondAtSlots_slotSecond (seq_of (hP.queueSecond _ hlapsed))⟩

/-! Nothing is left to take (R106). -/

theorem expired_of_ahead {deadline : Option Tick} (h : DeadlineAhead False s.callTicks deadline) :
    s.expired deadline = false :=
  Bool.eq_false_iff.2 fun hexp => h.2 ((expiredAt_iff h.1).1 hexp)

theorem nothingFound_takeDue (h : CallStateAgrees s) : NothingFound s.takeDue := by
  by_cases hr : s.seq = .run
  · have hfits := (fits_of_agrees h hr).takeDue
    obtain ⟨hqueue, hslots⟩ := marks_takeDue hr
    exact ⟨fun n => expired_of_ahead (hfits.slots n).deadline, fun p => expired_of_ahead (hfits.positions p).deadline,
      expired_of_ahead hfits.supervised, hqueue, hslots⟩
  · obtain ⟨hstarting, -⟩ := starting_of_agrees h hr
    rw [takeDue_of_startUp hr]
    refine ⟨fun n => ?_, fun p => ?_, ?_, hstarting.secondAtQueue, hstarting.secondAtSlots⟩
    · rw [(hstarting.slots n).deadline]; rfl
    · rw [hstarting.positions p]; rfl
    · rw [hstarting.supervision]; rfl

end

/-- The divider comes to 0 from 9 (R101). -/
theorem divider_wraps_iff : ∀ d : Fin 10, d + 1 = 0 ↔ d = 9 := by decide

/-- Settles O41: a call tick is what was left untaken and then `State.tick`, whose counters wrap. -/
theorem callTickStepsTheCounters : Obligations.CallTickStepsTheCounters := by
  intro s
  have hclock := clockPart_takeDue s
  simp only [State.clockPart, Prod.mk.injEq] at hclock
  obtain ⟨hseq, hticks, hdivider, hcadence⟩ := hclock
  have hsecond : (decide (s.takeDue.seq = .run) && decide (s.takeDue.divider + 1 = 0)) =
      decide (s.seq = .run ∧ s.divider = 9) := by
    rw [hseq, hdivider, ← Bool.decide_and]
    exact decide_eq_decide.2 (and_congr_right fun _ => divider_wraps_iff _)
  refine ⟨s.takeDue, s.callTick, runAll_dueCommands s, rfl, ?_, ?_, ?_, ?_, fun h => ?_, nothingFound_takeDue⟩
  · rw [← hsecond]
    rfl
  · exact (congrArg (fun c : Tick => (c + 1).toNat) hticks).trans (BitVec.toNat_add _ _)
  · exact (congrArg (fun d : Fin 10 => (d + 1).val) hdivider).trans (Fin.val_add _ _)
  · exact (congrArg (fun d : Fin 40 => (d + 1).val) hcadence).trans (Fin.val_add _ _)
  · rcases h with h | h
    · exact takeDue_of_startUp h
    · exact takeDue_of_nothingFound h

end Sys2Proof.Machine
end

section
/-! PROOFS. Withdrawals at every position: the lapse and the night request. -/

namespace Sys2Proof.Machine

open Sys2Proof.Safety

/-! A move of one position that withdraws its presentation, made at each position of a list in turn. -/

/-- `t` is `s` but for slot records, position records and the ready list. -/
def OnlyCallsMoved (s t : State) : Prop :=
  t = { s with slots := t.slots, positions := t.positions, readyList := t.readyList }

theorem OnlyCallsMoved.trans {s t u : State} (h : OnlyCallsMoved s t) (k : OnlyCallsMoved t u) : OnlyCallsMoved s u := by
  unfold OnlyCallsMoved at *
  rw [h] at k
  exact k

theorem onlyCallsMoved_withdraw (s : State) (p : PosNo) : OnlyCallsMoved s (s.withdraw p) := by
  unfold State.withdraw
  split
  · rfl
  · rfl

theorem onlyCallsMoved_becomeReady (s : State) (p : PosNo) : OnlyCallsMoved s (s.becomeReady p) := rfl

theorem onlyCallsMoved_becomeClosed (s : State) (p : PosNo) : OnlyCallsMoved s (s.becomeClosed p) := rfl

/-- `f` withdraws what a position presents and leaves there the record `g` makes of its own. -/
structure Withdraws (f : State → PosNo → State) (g : Position → Position) : Prop where
  pos : ∀ (s : State) (p q : PosNo), PositionFieldsFit (s.pos p) →
    (f s p).pos q = if q = p then g (s.pos p) else s.pos q
  slot : ∀ (s : State) (p : PosNo) (n : SlotNo), PositionFieldsFit (s.pos p) →
    (f s p).slot n = if (s.pos p).presented = some n then (s.slot n).returned else s.slot n
  frame : ∀ (s : State) (p : PosNo), OnlyCallsMoved s (f s p)

section
variable {f : State → PosNo → State} {g : Position → Position} {s : State}

/-- Made at each of several positions, it changes each as it changes one, and returns each call one of them presents. -/
theorem Withdraws.foldl (hf : Withdraws f g) (l : List PosNo) (hl : l.Nodup)
    (hfit : ∀ p ∈ l, PositionFieldsFit (s.pos p))
    (honce : ∀ p ∈ l, ∀ q ∈ l, ∀ n, (s.pos p).presented = some n → (s.pos q).presented = some n → p = q) :
    (∀ q, (l.foldl f s).pos q = if q ∈ l then g (s.pos q) else s.pos q) ∧
      (∀ n, (l.foldl f s).slot n =
        if ∃ q ∈ l, (s.pos q).presented = some n then (s.slot n).returned else s.slot n) ∧
      OnlyCallsMoved s (l.foldl f s) := by
  induction l generalizing s with
  | nil => exact ⟨by simp, by simp, rfl⟩
  | cons p l ih =>
    rw [List.nodup_cons] at hl
    obtain ⟨hp, hl⟩ := hl
    rw [List.forall_mem_cons] at hfit
    obtain ⟨hfitp, hfitl⟩ := hfit
    have hrest : ∀ q ∈ l, (f s p).pos q = s.pos q := fun q hq => by
      rw [hf.pos s p q hfitp, if_neg (ne_of_mem_of_not_mem hq hp)]
    obtain ⟨hpos, hslot, hframe⟩ := ih (s := f s p) hl (fun q hq => hrest q hq ▸ hfitl q hq)
      fun a ha b hb n hna hnb => honce a (.tail _ ha) b (.tail _ hb) n (hrest a ha ▸ hna) (hrest b hb ▸ hnb)
    refine ⟨fun q => ?_, fun n => ?_, (hf.frame s p).trans hframe⟩
    · rw [List.foldl_cons, hpos, hf.pos s p q hfitp]
      by_cases hq : q = p
      · subst hq
        rw [if_neg hp, if_pos rfl, if_pos List.mem_cons_self]
      · simp only [hq, if_false, List.mem_cons, false_or]
    · have hlater : (∃ q ∈ l, ((f s p).pos q).presented = some n) ↔ ∃ q ∈ l, (s.pos q).presented = some n :=
        exists_congr fun q => and_congr_right fun hq => by rw [hrest q hq]
      rw [List.foldl_cons, hslot, hf.slot s p n hfitp]
      simp only [hlater, List.exists_mem_cons_iff]
      by_cases hnow : (s.pos p).presented = some n
      · have hnone : ¬∃ q ∈ l, (s.pos q).presented = some n := fun ⟨q, hq, hn⟩ =>
          hp (honce p List.mem_cons_self q (.tail _ hq) n hnow hn ▸ hq)
        simp only [hnow, hnone, if_true, if_false, true_or]
      · simp only [hnow, if_false, false_or]

/-- Made at every position, it returns each presented call. -/
theorem Withdraws.foldl_allPositions (hf : Withdraws f g) (hfit : RecordsFit s) (hcalls : CallsAgree s) :
    (∀ p, (allPositions.foldl f s).pos p = g (s.pos p)) ∧
      (∀ n, (allPositions.foldl f s).slot n =
        if (s.slot n).disp = .presented then (s.slot n).returned else s.slot n) ∧
      OnlyCallsMoved s (allPositions.foldl f s) := by
  obtain ⟨-, hfields⟩ := hfit
  obtain ⟨-, hpres, -, -, hplaced⟩ := hcalls
  obtain ⟨hpos, hslot, hframe⟩ := hf.foldl (s := s) allPositions (by decide) (fun p _ => hfields p)
    fun p _ q _ n hp hq => Option.some.inj (((hpres n p).2 hp).2.symm.trans ((hpres n q).2 hq).2)
  refine ⟨fun p => (hpos p).trans (if_pos (mem_allPositions p)), fun n => (hslot n).trans (if_congr ⟨?_, fun hd => ?_⟩ rfl rfl),
    hframe⟩
  · rintro ⟨p, -, hp⟩
    exact ((hpres n p).2 hp).1
  · obtain ⟨p, hp⟩ := Option.isSome_iff_exists.1 (hplaced n (.inr (.inl hd)))
    exact ⟨p, mem_allPositions p, (hpres n p).1 ⟨hd, hp⟩⟩

end

/-! Position records with no call (R74, R75). -/

section
variable {x : Position}

theorem presented_eq_none_of_idle (h : PositionFieldsFit x) (he : x.state ≠ .engaged)
    (hp : x.state ≠ .presenting) : x.presented = none := h.2.1 he hp

/-- A position that is neither ENGAGED nor in WRAPUP and presents nothing holds its state and miss count alone. -/
theorem eq_bare_of_fieldsFit (h : PositionFieldsFit x) (he : x.state ≠ .engaged) (hw : x.state ≠ .wrapup)
    (st : PosState) : { x with state := st, presented := none } = x.bare st := by
  obtain ⟨hcalls, -, hguard, -⟩ := h
  obtain ⟨htalking, hthreshold, hstack, hpending⟩ := hcalls he
  rw [Position.bare, htalking, hthreshold, hstack, hpending, hguard hw]
  rfl

end

/-! The lapse (R123). -/

/-- What a lapse makes of a position record. -/
def Position.lapsed (x : Position) : Position :=
  { x with state := if x.state = .presenting then .ready else x.state, presented := none }

section
variable {s : State} {p : PosNo}

theorem lapsePosition_presenting (h : (s.pos p).state = .presenting) :
    s.lapsePosition p = (s.withdraw p).becomeReady p := by simp only [State.lapsePosition, h]

theorem lapsePosition_engaged (h : (s.pos p).state = .engaged) : s.lapsePosition p = s.withdraw p := by
  simp only [State.lapsePosition, h]

theorem lapsePosition_idle (he : (s.pos p).state ≠ .engaged) (hp : (s.pos p).state ≠ .presenting) :
    s.lapsePosition p = s := by
  unfold State.lapsePosition
  split
  · rename_i h; exact absurd h hp
  · rename_i h; exact absurd h he
  · rfl

theorem withdraws_lapsePosition : Withdraws State.lapsePosition Position.lapsed where
  pos s p q hfit := by
    by_cases hp : (s.pos p).state = .presenting
    · have hbare := eq_bare_of_fieldsFit hfit (by rw [hp]; decide) (by rw [hp]; decide) .ready
      rw [lapsePosition_presenting hp, State.pos_becomeReady, State.pos_withdraw, State.pos_withdraw, if_pos rfl,
        Position.lapsed, if_pos hp, hbare]
      split
      · rfl
      · rfl
    · by_cases he : (s.pos p).state = .engaged
      · rw [lapsePosition_engaged he, State.pos_withdraw, Position.lapsed, if_neg hp]
      · rw [lapsePosition_idle he hp, Position.lapsed, if_neg hp, ← presented_eq_none_of_idle hfit he hp]
        split
        · rename_i hq; rw [hq]
        · rfl
  slot s p n hfit := by
    by_cases hp : (s.pos p).state = .presenting
    · rw [lapsePosition_presenting hp, State.slot_becomeReady, State.slot_withdraw]
    · by_cases he : (s.pos p).state = .engaged
      · rw [lapsePosition_engaged he, State.slot_withdraw]
      · rw [lapsePosition_idle he hp, presented_eq_none_of_idle hfit he hp, if_neg (by simp)]
  frame s p := by
    by_cases hp : (s.pos p).state = .presenting
    · rw [lapsePosition_presenting hp]
      exact (onlyCallsMoved_withdraw s p).trans (onlyCallsMoved_becomeReady _ p)
    · by_cases he : (s.pos p).state = .engaged
      · rw [lapsePosition_engaged he]
        exact onlyCallsMoved_withdraw s p
      · rw [lapsePosition_idle he hp]
        rfl

theorem readyList_lapsePosition (s : State) (p : PosNo) : (s.lapsePosition p).readyList =
    if (s.pos p).state = .presenting then withoutPos s.readyList p ++ [p] else s.readyList := by
  unfold State.lapsePosition
  split
  · rename_i h
    rw [if_pos h, State.becomeReady, State.readyList_withdraw]
  · rename_i h
    rw [if_neg (by rw [h]; decide), State.readyList_withdraw]
  · rename_i h _
    rw [if_neg h]

/-- PRESENTING positions become READY in turn, behind those READY already (R82, R123). -/
theorem readyList_foldl_lapsePosition (l : List PosNo) (hl : l.Nodup) (hfit : ∀ p ∈ l, PositionFieldsFit (s.pos p))
    (hready : ∀ p ∈ l, (s.pos p).state = .presenting → p ∉ s.readyList) : (l.foldl State.lapsePosition s).readyList =
      s.readyList ++ l.filter fun p => decide ((s.pos p).state = .presenting) := by
  induction l generalizing s with
  | nil => simp
  | cons p l ih =>
    rw [List.nodup_cons] at hl
    obtain ⟨hp, hl⟩ := hl
    rw [List.forall_mem_cons] at hfit hready
    have hrest : ∀ q ∈ l, (s.lapsePosition p).pos q = s.pos q := fun q hq => by
      rw [withdraws_lapsePosition.pos s p q hfit.1, if_neg (ne_of_mem_of_not_mem hq hp)]
    have hlist : (s.lapsePosition p).readyList =
        s.readyList ++ if (s.pos p).state = .presenting then [p] else [] := by
      rw [readyList_lapsePosition]
      split
      · rename_i h
        rw [withoutPos, List.filter_eq_self.2 fun q hq => by simpa using ne_of_mem_of_not_mem hq (hready.1 h)]
      · rw [List.append_nil]
    have hfilter : (l.filter fun q => decide (((s.lapsePosition p).pos q).state = .presenting)) =
        l.filter fun q => decide ((s.pos q).state = .presenting) :=
      List.filter_congr fun q hq => by rw [hrest q hq]
    rw [List.foldl_cons, ih hl (fun q hq => hrest q hq ▸ hfit.2 q hq), hfilter, hlist, List.append_assoc]
    · congr 1
      by_cases h : (s.pos p).state = .presenting <;> simp [h]
    · intro q hq hst
      rw [hrest q hq] at hst
      rw [hlist, List.mem_append, not_or]
      refine ⟨hready.2 q hq hst, ?_⟩
      split
      · simpa using ne_of_mem_of_not_mem hq hp
      · simp

/-- The lapse in full, under the agreement of the owners (R123). -/
theorem lapse_eq (h : CallStateAgrees s) :
    s.lapse = { s with
      actual := .lapsed, supervision := none, latched := s.latched ||| causeLapse ||| causeMode
      slots := s.lapse.slots, positions := s.lapse.positions
      readyList := s.readyList ++ allPositions.filter fun p => decide ((s.pos p).state = .presenting) } ∧
    (∀ p, s.lapse.pos p = (s.pos p).lapsed) ∧
    ∀ n, s.lapse.slot n = if (s.slot n).disp = .presented then (s.slot n).returned else s.slot n := by
  obtain ⟨hfit, ⟨-, hready⟩, -, -, hcalls, -⟩ := h
  have hfit' : RecordsFit { s with supervision := none, actual := .lapsed } := hfit
  have hcalls' : CallsAgree { s with supervision := none, actual := .lapsed } := hcalls
  have hlist := readyList_foldl_lapsePosition (s := { s with supervision := none, actual := .lapsed }) allPositions
    (by decide) (fun p _ => hfit.2 p) fun p _ hst hp => by
      have hst' : (s.pos p).state = .presenting := hst
      simp [(hready p).1 hp] at hst'
  obtain ⟨hpos, hslot, hframe⟩ := withdraws_lapsePosition.foldl_allPositions hfit' hcalls'
  unfold State.lapse
  generalize allPositions.foldl State.lapsePosition { s with supervision := none, actual := .lapsed } = t at *
  refine ⟨?_, hpos, hslot⟩
  unfold OnlyCallsMoved at hframe
  rw [hlist] at hframe
  rw [BitVec.or_assoc]
  exact congrArg (fun u : State => u.latch (causeLapse ||| causeMode)) hframe

theorem supervisionExpires_due (hr : s.seq = .run) (hd : s.actual = .day) (h : s.expired s.supervision = true) :
    s.supervisionExpires = s.lapse.posting s := by
  simp [State.supervisionExpires, hr, hd, h]

theorem supervisionExpires_of_not (h : s.seq ≠ .run ∨ s.actual ≠ .day ∨ s.expired s.supervision = false) :
    s.supervisionExpires = s := by
  unfold State.supervisionExpires
  rw [if_neg]
  rcases h with h | h | h <;> simp [h]

end

/-- Settles O46: the lapse of `lapse_eq`, taken when supervision is due in DAY. -/
theorem supervisionExpiryEntersLapsed : Obligations.SupervisionExpiryEntersLapsed := by
  intro s hagrees
  refine ⟨fun hr hd hdue => ?_, fun h => congrArg Host.Outcome.next (supervisionExpires_of_not h)⟩
  exact ⟨s.lapse, _, congrArg Host.Outcome.next (supervisionExpires_due hr hd hdue), (kept_lapse s).eventDone,
    lapse_eq hagrees⟩

/-! The night request (R118) and the end of its drain (R119). -/

/-- What a night request makes of a position record. -/
def Position.nightClosed (x : Position) : Position :=
  if x.state = .engaged then { x with presented := none, closePending := true } else x.bare .closed

section
variable {s : State} {p : PosNo}

theorem nightClose_closed (h : (s.pos p).state = .closed) : s.nightClose p = s := by simp only [State.nightClose, h]

theorem nightClose_engaged (h : (s.pos p).state = .engaged) :
    s.nightClose p = (s.withdraw p).setPos p { (s.withdraw p).pos p with closePending := true } := by
  simp only [State.nightClose, h]

theorem nightClose_open (hc : (s.pos p).state ≠ .closed) (he : (s.pos p).state ≠ .engaged) :
    s.nightClose p = (s.withdraw p).becomeClosed p := by
  unfold State.nightClose
  split
  · rename_i h; exact absurd h hc
  · rename_i h; exact absurd h he
  · rfl

theorem withdraws_nightClose : Withdraws State.nightClose Position.nightClosed where
  pos s p q hfit := by
    by_cases he : (s.pos p).state = .engaged
    · rw [nightClose_engaged he, State.pos_setPos, State.pos_withdraw, State.pos_withdraw, if_pos rfl,
        Position.nightClosed, if_pos he]
      split
      · rfl
      · rfl
    · rw [Position.nightClosed, if_neg he]
      by_cases hc : (s.pos p).state = .closed
      · have hbare := eq_bare_of_fieldsFit hfit he (by rw [hc]; decide) .closed
        have hsame : s.pos p = { s.pos p with state := .closed, presented := none } := by
          rw [← hc, ← presented_eq_none_of_idle hfit he (by rw [hc]; decide)]
        rw [nightClose_closed hc, ← hbare, ← hsame]
        split
        · rename_i hq; rw [hq]
        · rfl
      · rw [nightClose_open hc he, State.pos_becomeClosed, State.pos_withdraw, State.pos_withdraw, if_pos rfl]
        split
        · rfl
        · rfl
  slot s p n hfit := by
    by_cases he : (s.pos p).state = .engaged
    · rw [nightClose_engaged he, State.slot_setPos, State.slot_withdraw]
    · by_cases hc : (s.pos p).state = .closed
      · rw [nightClose_closed hc, presented_eq_none_of_idle hfit he (by rw [hc]; decide), if_neg (by simp)]
      · rw [nightClose_open hc he, State.slot_becomeClosed, State.slot_withdraw]
  frame s p := by
    by_cases he : (s.pos p).state = .engaged
    · rw [nightClose_engaged he]
      exact (onlyCallsMoved_withdraw s p).trans rfl
    · by_cases hc : (s.pos p).state = .closed
      · rw [nightClose_closed hc]
        rfl
      · rw [nightClose_open hc he]
        exact (onlyCallsMoved_withdraw s p).trans (onlyCallsMoved_becomeClosed _ p)

/-- Of the ready list, the positions it has come to are gone (R79, R118). -/
theorem mem_readyList_nightClose {q : PosNo} (hready : q ∈ s.readyList → (s.pos q).state = .ready)
    (hq : q ∈ (s.nightClose p).readyList) : q ∈ s.readyList ∧ q ≠ p := by
  by_cases hc : (s.pos p).state = .closed
  · rw [nightClose_closed hc] at hq
    refine ⟨hq, fun e => ?_⟩
    rw [← e, hready hq] at hc
    exact PosState.noConfusion hc
  · by_cases he : (s.pos p).state = .engaged
    · rw [nightClose_engaged he] at hq
      have hq' : q ∈ s.readyList := State.readyList_withdraw s p ▸ hq
      refine ⟨hq', fun e => ?_⟩
      rw [← e, hready hq'] at he
      exact PosState.noConfusion he
    · rw [nightClose_open hc he, State.becomeClosed, State.readyList_withdraw] at hq
      simpa [withoutPos] using hq

theorem mem_readyList_foldl_nightClose (l : List PosNo) (hl : l.Nodup) (hfit : ∀ p ∈ l, PositionFieldsFit (s.pos p))
    (hready : ∀ q ∈ s.readyList, (s.pos q).state = .ready) {q : PosNo}
    (hq : q ∈ (l.foldl State.nightClose s).readyList) : q ∈ s.readyList ∧ q ∉ l := by
  induction l generalizing s with
  | nil => exact ⟨hq, List.not_mem_nil⟩
  | cons p l ih =>
    rw [List.nodup_cons] at hl
    obtain ⟨hp, hl⟩ := hl
    rw [List.forall_mem_cons] at hfit
    have hother : ∀ x, x ≠ p → (s.nightClose p).pos x = s.pos x := fun x hx => by
      rw [withdraws_nightClose.pos s p x hfit.1, if_neg hx]
    obtain ⟨hlist, hl⟩ := ih hl (fun x hx => hother x (ne_of_mem_of_not_mem hx hp) ▸ hfit.2 x hx) (fun x hx => by
      obtain ⟨hmem, hne⟩ := mem_readyList_nightClose (hready x) hx
      rw [hother x hne, hready x hmem]) hq
    obtain ⟨hmem, hne⟩ := mem_readyList_nightClose (hready q) hlist
    exact ⟨hmem, fun h => (List.mem_cons.1 h).elim hne hl⟩

theorem state_nightClosed (x : Position) : x.nightClosed.state = .engaged ↔ x.state = .engaged := by
  unfold Position.nightClosed
  split
  · rfl
  · rename_i h
    exact iff_of_false (by simp [Position.bare]) h

theorem noneEngaged_iff (s : State) :
    s.noneEngaged = true ↔ ∀ p : PosNo, p.val < s.fitted → (s.pos p).state ≠ .engaged := by
  simp only [State.noneEngaged, List.all_eq_true, Bool.not_eq_true', Bool.and_eq_false_iff, State.isFitted,
    State.isEngaged, decide_eq_false_iff_not]
  exact ⟨fun h p hf he => (h p (mem_allPositions p)).elim (absurd hf) (absurd he), fun h p _ =>
    (em (p.val < s.fitted)).elim (fun hf => .inr (h p hf)) .inl⟩

/-- Every position as a night request makes it, before the mode is seen to (R118). -/
theorem foldl_nightClose_eq (h : CallStateAgrees s) :
    allPositions.foldl State.nightClose s = { s with
      slots := (allPositions.foldl State.nightClose s).slots
      positions := (allPositions.foldl State.nightClose s).positions, readyList := [] } ∧
    (∀ p, (allPositions.foldl State.nightClose s).pos p = (s.pos p).nightClosed) ∧
    ∀ n, (allPositions.foldl State.nightClose s).slot n =
      if (s.slot n).disp = .presented then (s.slot n).returned else s.slot n := by
  obtain ⟨hfit, ⟨-, hready⟩, -, -, hcalls, -⟩ := h
  obtain ⟨hpos, hslot, hframe⟩ := withdraws_nightClose.foldl_allPositions hfit hcalls
  have hnone : (allPositions.foldl State.nightClose s).readyList = [] :=
    List.eq_nil_iff_forall_not_mem.2 fun q hq =>
      (mem_readyList_foldl_nightClose allPositions (by decide) (fun p _ => hfit.2 p) (fun q hq => (hready q).1 hq) hq).2
        (mem_allPositions q)
  refine ⟨?_, hpos, hslot⟩
  unfold OnlyCallsMoved at hframe
  rwa [hnone] at hframe

/-- A drain ends where no fitted position is ENGAGED (R119). -/
theorem drained_ends (hn : s.nightPending = true) (hd : s.actual = .day) (he : s.noneEngaged = true) :
    s.drained = s.enterNight := by
  simp [State.drained, hn, hd, he]

theorem drained_of_not (h : s.nightPending = false ∨ s.actual ≠ .day ∨ s.noneEngaged = false) : s.drained = s := by
  unfold State.drained
  rw [if_neg]
  rcases h with h | h | h <;> simp [h]

end

/-- Settles O47: `foldl_nightClose_eq` with the mode by whether a position is ENGAGED, and the two cases of `drained`. -/
theorem nightRequestAndTheEndOfItsDrain : Obligations.NightRequestAndTheEndOfItsDrain := by
  refine ⟨fun s hagrees hunfit => ⟨_, rfl, ?_⟩, fun s => ⟨fun hn hd he => ?_, fun h => ?_⟩⟩
  · obtain ⟨hframe, hpos, hslot⟩ := foldl_nightClose_eq hagrees
    unfold State.nightRequest
    generalize allPositions.foldl State.nightClose s = t at hframe hpos hslot ⊢
    have hfitted : t.fitted = s.fitted := by rw [hframe]; rfl
    have hnone : t.noneEngaged = true ↔ ¬∃ p : PosNo, (s.pos p).state = .engaged := by
      rw [noneEngaged_iff, hfitted, not_exists]
      refine ⟨fun h p he => ?_, fun h p _ => ?_⟩
      · by_cases hp : p.val < s.fitted
        · exact h p hp (by rw [hpos, state_nightClosed]; exact he)
        · rw [hunfit p (Nat.not_lt.1 hp)] at he
          exact PosState.noConfusion he
      · rw [hpos, ne_eq, state_nightClosed]
        exact h p
    dsimp only
    by_cases hex : ∃ p : PosNo, (s.pos p).state = .engaged
    · rw [if_neg fun h => hnone.1 h hex]
      simp only [if_pos hex]
      exact ⟨congrArg (fun u : State => { u with nightPending := true }) hframe, hpos, hslot⟩
    · rw [if_pos (hnone.2 hex)]
      simp only [if_neg hex]
      exact ⟨congrArg State.enterNight hframe, hpos, hslot⟩
  · rw [drained_ends hn hd ((noneEngaged_iff s).2 he)]
    rfl
  · refine drained_of_not (h.imp_right (Or.imp_right ?_))
    rintro ⟨p, hp, he⟩
    rw [Bool.eq_false_iff, ne_eq, noneEngaged_iff]
    exact fun hall => hall p hp he

end Sys2Proof.Machine
end

section
/-! PROOFS. Mode writes and heartbeats. -/

namespace Sys2Proof.Machine

open Sys2Proof.Safety

section
variable {s : State}

/-! The mode value of a MODE write (R117, R141). -/

/-- The low two bits of a merged word come from lane 0 (R146). -/
theorem toNat_mergeLanes_mod (lanes : Lanes) (w old : Word32) :
    (mergeLanes lanes w old).toNat % 4 = if lanes.getLsbD 0 then w.toNat % 4 else old.toNat % 4 := by
  rw [mergeLanes, toNat_ofLanes]
  dsimp only
  by_cases h : lanes.getLsbD 0 = true
  · rw [if_pos h, if_pos h, toNat_laneOf]
    omega
  · rw [if_neg h, if_neg h, toNat_laneOf]
    omega

theorem toNat_modeWord (t : Settings) : (t.word .mode).toNat % 4 = if t.mode = .day then 1 else 2 := by
  rw [toNat_settingWord, settingValue]
  split <;> rfl

/-- The mode value a MODE write of any lanes and data is acted on with. -/
def State.modeValue (s : State) (lanes : Lanes) (data : Word32) : Service :=
  if lanes.getLsbD 0 = false then s.settings.mode
  else if data.toNat % 4 = 1 then .day else if data.toNat % 4 = 2 then .night else s.requested

theorem commit_mode (s : State) (lanes : Lanes) (data : Word32) :
    s.settings.commit .mode (mergeLanes lanes data (s.settings.word .mode)) s.requested =
      { s.settings with mode := s.modeValue lanes data } := by
  have hmode := mode_commit s.settings (mergeLanes lanes data (s.settings.word .mode)) s.requested
  have hother : ∀ v : Word32, s.settings.commit .mode v s.requested =
      { s.settings with mode := (s.settings.commit .mode v s.requested).mode } := fun _ => rfl
  rw [hother, hmode, toNat_mergeLanes_mod, toNat_modeWord, State.modeValue]
  cases lanes.getLsbD 0 with
  | true => rfl
  | false => cases s.settings.mode <;> rfl

/-- What the Mode Unit makes of mode value `v`, its shadow and the requested mode being `v` (R117 to R120, R124). -/
def State.modeTaken (s : State) (v : Service) : State :=
  State.takeMode { s with settings := { s.settings with mode := v } } v

theorem writeEffect_mode (s : State) {r : Requester} (hr : actsForConsole r = true) (lanes : Lanes) (data : Word32)
    (lock : Bool) : s.writeEffect (s.writeTxn r 0x000 lanes data lock) (s.reach 0x000) =
      ⟨s.modeTaken (s.modeValue lanes data), .write (s.addr 0x000) fullLanes
        (Settings.word { s.settings with mode := s.modeValue lanes data } .mode), none⟩ := by
  have hreach : s.reach 0x000 = ⟨0x000, .setting .mode, none⟩ := reach_of_placeOf s 0x000 (by decide)
  have hw : mayWrite (.setting .mode) r = true := hr
  have heffect : s.settingEffect (s.writeTxn r 0x000 lanes data lock) ⟨0x000, .setting .mode, none⟩ .mode =
      ⟨s.modeTaken (s.modeValue lanes data), .write (s.addr 0x000) fullLanes
        (Settings.word { s.settings with mode := s.modeValue lanes data } .mode), none⟩ := by
    unfold State.settingEffect
    rw [show (s.writeTxn r 0x000 lanes data lock).lanes = lanes from rfl,
      show (s.writeTxn r 0x000 lanes data lock).data = data from rfl, commit_mode]
    rfl
  rw [hreach, ← heffect]
  simp only [State.writeEffect, requesterOf_writeTxn, hw, if_true]
  rfl

theorem busKept_modeTaken (s : State) (v : Service) : BusKept s (s.modeTaken v) := by
  have hk := kept_takeMode { s with settings := { s.settings with mode := v } } v
  exact ⟨hk.straps, hk.posts, hk.owed, hk.held, hk.reply, hk.mem⟩

/-- A MODE write on the free bus, by the value it is acted on with (R117). -/
theorem mode_done (hs : Serving s) {r : Requester} (hr : actsForConsole r = true) (lanes : Lanes) (data : Word32)
    (lock : Bool) {v : Service} (hv : s.modeValue lanes data = v) :
    WriteDone s (s.modeTaken v) (s.arrive (s.writeTxn r 0x000 lanes data lock)) (s.writeTxn r 0x000 lanes data lock) 0x000
      fullLanes (Settings.word { s.settings with mode := v } .mode) := by
  subst hv
  exact arrive_done hs r 0x000 0x000 lanes fullLanes data _ lock _ (by rw [reach_of_placeOf s 0x000 (by decide)])
    (writeEffect_mode s hr lanes data lock) (busKept_modeTaken s _)

/-- A MODE write with lane 0 enabled is acted on with the value it carries (R117). -/
theorem modeValue_modeTxn (s : State) (upperLanes : BitVec 3) (rest : BitVec 30) {code : BitVec 2} {v : Service}
    (hv : serviceOfCode code = some v) : s.modeValue (upperLanes ++ 1#1) (rest ++ code) = v := by
  have hlane : (upperLanes ++ 1#1).getLsbD 0 = true := by
    rw [BitVec.getLsbD_append]
    rfl
  have hdata : (rest ++ code).toNat % 4 = code.toNat := by
    have := code.isLt
    rw [toNat_append_add]
    omega
  rw [serviceOfCode_eq] at hv
  rw [State.modeValue, if_neg (by simp [hlane]), hdata]
  split_ifs at hv ⊢
  · exact Option.some.inj hv
  · exact Option.some.inj hv

/-- What a mode write does, by the actual mode: the night request, the cancelling of one, the return from NIGHT, or nothing. -/
theorem modeTaken_night (s : State) {asked : State}
    (hasked : asked = { s with settings := { s.settings with mode := .night }, requested := .night }) :
    s.modeTaken .night = match s.actual with
      | .day => if s.nightPending = false then asked.nightRequest else asked
      | .night => asked
      | .lapsed => asked := by
  subst hasked
  unfold State.modeTaken State.takeMode
  dsimp only
  cases s.actual with
  | day => cases s.nightPending <;> rfl
  | night => rfl
  | lapsed => rfl

theorem modeTaken_day (s : State) {asked : State}
    (hasked : asked = { s with settings := { s.settings with mode := .day }, requested := .day }) :
    s.modeTaken .day = match s.actual with
      | .day => if s.nightPending then State.arbitrate { asked with nightPending := false } else asked
      | .night => State.arbitrate { asked with
          actual := .day, supervision := armAt s.callTicks (supervisionSeconds s.settings.supervision)
          latched := s.latched ||| causeMode }
      | .lapsed => asked := by
  subst hasked
  unfold State.modeTaken State.takeMode
  dsimp only
  cases s.actual <;> rfl

end

/-- Settles O48: `mode_done` for the value each write is acted on with; what the Mode Unit makes of it is `takeMode`. -/
theorem modeWritesActByTheActualMode : Obligations.ModeWritesActByTheActualMode := by
  intro s r lock hs hr asked acted word
  have hacted : ∀ v, s.modeTaken v = acted v := by
    intro v
    cases v with
    | day =>
      rw [modeTaken_day s rfl]
      dsimp only [acted, asked]
      cases s.actual <;> rfl
    | night =>
      rw [modeTaken_night s rfl]
      dsimp only [acted, asked]
      cases s.actual <;> rfl
  have hword : ∀ v, Settings.word { s.settings with mode := v } .mode = word v := by
    intro v
    simp only [word, Settings.word]
    cases v <;> rfl
  have hdone : ∀ lanes data v, s.modeValue lanes data = v →
      WriteDone s (acted v) (s.arrive (s.writeTxn r 0x000 lanes data lock)) (s.writeTxn r 0x000 lanes data lock) 0x000
        fullLanes (word v) := by
    intro lanes data v hv
    rw [← hacted v, ← hword v]
    exact mode_done hs hr lanes data lock hv
  refine ⟨fun upperLanes rest => ⟨⟨_, rfl, ?_⟩, ⟨_, rfl, ?_⟩⟩, fun lanes data => ⟨_, rfl, ?_⟩⟩
  · exact hdone _ _ _ (modeValue_modeTxn s upperLanes rest (code := 2) rfl)
  · exact hdone _ _ _ (modeValue_modeTxn s upperLanes rest (code := 1) rfl)
  · exact hdone lanes data _ rfl

section
variable {s : State}

/-! HEARTBEAT (R122, R125, R138). -/

theorem supervisionSeconds_eq (code : BitVec 8) : supervisionSeconds code = if code.toNat = 0 then 0
    else if code.toNat = 1 then 2 else if code.toNat = 2 then 4 else if code.toNat = 3 then 8 else 16 := by
  unfold supervisionSeconds
  split
  case h_5 h0 h1 h2 h3 => rw [if_neg h0, if_neg h1, if_neg h2, if_neg h3]
  all_goals rename_i h; rw [h]; rfl

theorem heartbeat_done (hs : Serving s) {r : Requester} (hr : actsForConsole r = true) (data : Word32) (lock : Bool) :
    WriteDone s s.takeHeartbeat (s.arrive (s.writeTxn r 0x001 fullLanes data lock))
      (s.writeTxn r 0x001 fullLanes data lock) 0x001 fullLanes (setLane3 data Result.taken.code) := by
  have hreach : s.reach 0x001 = ⟨0x001, .heartbeat, none⟩ := reach_of_placeOf s 0x001 (by decide)
  refine arrive_done hs r 0x001 0x001 fullLanes fullLanes data _ lock _ (by rw [hreach]) ?_ (kept_takeHeartbeat s).bus_kept
  have hw : mayWrite .heartbeat r = true := hr
  simp only [hreach, State.writeEffect, requesterOf_writeTxn, hw, if_true]
  rfl

end

/-- Settles O49: the intervals of `supervisionSeconds_eq`, and the three modes of `takeHeartbeat`. -/
theorem heartbeatActsByTheActualMode : Obligations.HeartbeatActsByTheActualMode := by
  intro s r data lock hs hr code seconds day
  refine ⟨_, rfl, ?_⟩
  have htaken := heartbeat_done hs hr data lock
  have hseconds : supervisionSeconds s.settings.supervision = seconds := supervisionSeconds_eq _
  have heffect : s.takeHeartbeat = match s.actual with
      | .day => { s with supervision := armAt s.callTicks seconds }
      | .night => s
      | .lapsed =>
        match s.requested with
        | .day => State.arbitrate { day with nightPending := false }
        | .night => day.nightRequest := by
    simp only [day]
    rw [← hseconds]
    rfl
  rw [heffect] at htaken
  exact htaken

end Sys2Proof.Machine
end

section
/-! PROOFS. Window writes that are not commands, and reads: presets, plain, partial and stray writes, acknowledgements
(chapters 3, 7 and 11). -/

namespace Sys2Proof.Machine

open Sys2Proof.Safety

section
variable {s : State}

/-! Counter presets (R72). -/

theorem preset_done (hs : Serving s) {r : Requester} (hr : actsForConsole r = true) (off : Offset) (lanes : Lanes)
    (data : Word32) (lock : Bool) {g : GroupNo} {c : Counters} {word : Word32}
    (hplace : placeOf off = .counterFirst g ∨ placeOf off = .counterSecond g)
    (heffect : s.rightfulEffect (s.writeTxn r off lanes data lock) (s.reach off) = s.presetEffect (s.reach off) g c word) :
    WriteDone s { s with counters := s.counters.set g c } (s.arrive (s.writeTxn r off lanes data lock))
      (s.writeTxn r off lanes data lock) off fullLanes word := by
  have hreach : s.reach off = ⟨off, placeOf off, none⟩ := reach_of_placeOf s off (by
    rcases hplace with h | h <;> simp [h])
  have hw : mayWrite (placeOf off) r = true := by
    rcases hplace with h | h <;> (rw [h]; exact hr)
  refine arrive_done hs r off off lanes fullLanes data word lock _ (by rw [hreach]) ?_ ⟨rfl, rfl, rfl, rfl, rfl, rfl⟩
  rw [State.writeEffect, requesterOf_writeTxn, show (s.reach off).place = placeOf off by rw [hreach], hw, if_pos rfl,
    heffect, hreach]
  rfl

end

/-- Settles O51: the two preset effects, each at its word of the group's pair. -/
theorem counterPresetMergesWithTheCounts : Obligations.CounterPresetMergesWithTheCounts := by
  intro s r g lanes data lock hs hr first second at1 at2
  obtain ⟨hfirst, hsecond⟩ := placeOf_counter g
  refine ⟨⟨_, rfl, ?_⟩, ⟨_, rfl, ?_⟩⟩
  · refine preset_done hs hr at1 lanes data lock (.inl hfirst) ?_
    rw [reach_of_placeOf s at1 (by simp [at1, hfirst]), hfirst]
    rfl
  · refine preset_done hs hr at2 lanes data lock (.inr hsecond) ?_
    rw [reach_of_placeOf s at2 (by simp [at2, hsecond]), hsecond]
    rfl

section
variable {s : State}

/-! Plain and partial writes (R129, R136, R146). -/

/-- The writes a requester with the right makes that reach memory as issued (R139, R146, R161). -/
def PlainPlace (pl : Place) (lanes : Lanes) (data : Word32) : Prop :=
  pl = .setupPlain ∨ pl = .statusPlain ∨ pl = .openPlain ∨ (∃ p, pl = .blockPlain p) ∨ (∃ n, pl = .destination n) ∨
    (∃ n, pl = .caller n) ∨ (∃ p i, pl = .view p i ∧ (i ≠ 0 ∨ lanes ≠ fullLanes)) ∨
    (pl = .restart ∧ lanes = fullLanes ∧ data ≠ Config.restartValue)

theorem rightfulEffect_plain (s : State) (txn : Txn) {r : Reached} (h : PlainPlace r.place txn.lanes txn.data) :
    s.rightfulEffect txn r = s.plainEffect txn r := by
  unfold State.rightfulEffect
  rcases h with h | h | h | ⟨p, h⟩ | ⟨n, h⟩ | ⟨n, h⟩ | ⟨p, i, h, hview⟩ | ⟨h, hlanes, hdata⟩
  case inr.inr.inr.inr.inr.inr.inl =>
    have hstands : (i = 0 && decide (txn.lanes = fullLanes)) = false := by
      rcases hview with hi | hl
      · simp [hi]
      · simp [hl]
    simp [h, Place.isCommand, State.viewEffect, hstands]
  case inr.inr.inr.inr.inr.inr.inr => simp [h, hlanes, hdata, State.restartEffect]
  all_goals simp [h, Place.isCommand]

theorem rightfulEffect_partial (s : State) (txn : Txn) {r : Reached} (hcommand : r.place.isCommand = true)
    (hlanes : txn.lanes ≠ fullLanes) : s.rightfulEffect txn r = s.partialEffect txn r := by
  simp [State.rightfulEffect, hcommand, hlanes]

theorem writeEffect_rightful (s : State) {r : Requester} {off : Offset} (hw : mayWrite (s.reach off).place r = true)
    (lanes : Lanes) (data : Word32) (lock : Bool) : s.writeEffect (s.writeTxn r off lanes data lock) (s.reach off) =
      s.rightfulEffect (s.writeTxn r off lanes data lock) (s.reach off) := by
  rw [State.writeEffect, requesterOf_writeTxn, hw, if_pos rfl]

theorem writeEffect_stray (s : State) {r : Requester} {off : Offset} (hw : mayWrite (s.reach off).place r = false)
    (lanes : Lanes) (data : Word32) (lock : Bool) : s.writeEffect (s.writeTxn r off lanes data lock) (s.reach off) =
      s.strayEffect (s.writeTxn r off lanes data lock) (s.reach off) := by
  rw [State.writeEffect, requesterOf_writeTxn, hw, if_neg Bool.false_ne_true]

/-- Outside the window a transaction on the free bus makes its access, or holds it while issues are owed (R129, R167). -/
theorem arrive_outside {txn : Txn} (hheld : s.held = none) (hbus : s.bus = [])
    (hoff : windowOffset s.straps.wbase txn.addr = none) : s.arrive txn = s.complete txn s.owed (outsideAccess txn) := by
  rw [arrive_of_free hheld hbus, State.take, hoff]

end

/-- Settles O53: `rightfulEffect_plain` and `rightfulEffect_partial` inside the window, `arrive_outside` outside it. -/
theorem plainAndPartialWritesReachMemoryAsIssued : Obligations.PlainAndPartialWritesReachMemoryAsIssued := by
  refine ⟨fun s r lanes data lock => ⟨fun off hs hw hplain => ⟨_, rfl, ?_⟩, fun addr hheld hbus hwf hoff => ⟨_, rfl, ?_⟩⟩,
    fun s r off lanes data lock hs hlanes hcommand hw => ⟨_, rfl, ?_⟩⟩
  · refine arrive_refused hs r off (s.reach off).offset lanes lanes data data lock rfl ?_
    rw [writeEffect_rightful s hw, rightfulEffect_plain s (s.writeTxn r off lanes data lock) hplain]
    rfl
  · have harrive : s.arrive ⟨busCode r, addr, true, lanes, data, lock⟩ =
        s.complete ⟨busCode r, addr, true, lanes, data, lock⟩ s.owed (.write addr lanes data) :=
      arrive_outside hheld hbus hoff
    obtain ⟨h, m, reply, hcomplete, hlands⟩ := complete_write s s ⟨busCode r, addr, true, lanes, data, lock⟩ s.owed addr
      lanes data rfl hwf hheld rfl
    rw [hcomplete] at harrive
    rw [harrive]
    exact ⟨rfl, hlands⟩
  · refine arrive_done hs r off (s.reach off).offset lanes lanes data data lock _ rfl ?_ (kept_raiseFault s _).bus_kept
    rw [writeEffect_rightful s hw, rightfulEffect_partial s _ hcommand hlanes, State.partialEffect, requesterOf_writeTxn]
    rfl

section
variable {s : State}

/-! Reads (R133, R150, R168). -/

theorem readData_window (s : State) (addr : BusAddr) (off : Offset) :
    s.readData addr (some off) = (s.overlay (placeOf off)).getD (s.mem.readWord addr) := by
  rw [State.readData]
  cases s.overlay (placeOf off) <;> rfl

/-- A read makes its access at once when nothing is owed, and is held otherwise (R167). -/
theorem complete_read (s : State) (txn : Txn) (before : List Post) (addr : BusAddr) (off : Option Offset) :
    s.complete txn before (.read addr off) = if s.owed = [] then { s with reply := some (s.readData addr off) }
      else { s with held := some ⟨txn, .read addr off, s.owed.length⟩ } := by
  by_cases howed : s.owed = [] <;> simp [State.complete, State.perform, howed]

theorem arrive_read_window (hs : Serving s) (r : Requester) (off : Offset) (lanes : Lanes) (locked : Bool)
    {lock : Option Lock} (hlock : lockAfter s.lock (readTxn r (s.addr off) lanes locked) (s.reach off).offset = lock) :
    s.arrive (readTxn r (s.addr off) lanes locked) =
      if s.owed = [] then { s with
        lock := lock
        reply := some ((s.overlay (placeOf (s.reach off).offset)).getD (s.mem.readWord (s.addr (s.reach off).offset))) }
      else { s with
        lock := lock
        held := some ⟨readTxn r (s.addr off) lanes locked,
          .read (s.addr (s.reach off).offset) (some (s.reach off).offset), s.owed.length⟩ } := by
  have htake : s.takeWindow (readTxn r (s.addr off) lanes locked) off = State.complete { s with lock := lock }
      (readTxn r (s.addr off) lanes locked) s.owed
      (.read (s.addr (s.reach off).offset) (some (s.reach off).offset)) := by
    rw [← hlock]
    rfl
  rw [arrive_serving hs _ off rfl, htake, complete_read, readData_window,
    overlay_bus s lock s.posts s.owed s.bus s.held s.mem s.reply]

theorem arrive_read_outside {addr : BusAddr} (hheld : s.held = none) (hbus : s.bus = [])
    (hoff : windowOffset s.straps.wbase addr = none) (r : Requester) (lanes : Lanes) (locked : Bool) :
    s.arrive (readTxn r addr lanes locked) = if s.owed = [] then { s with reply := some (s.mem.readWord addr) }
      else { s with held := some ⟨readTxn r addr lanes locked, .read addr none, s.owed.length⟩ } := by
  have haccess : outsideAccess (readTxn r addr lanes locked) = .read addr none := rfl
  have hdata : s.readData addr none = s.mem.readWord addr := rfl
  rw [arrive_outside (txn := readTxn r addr lanes locked) hheld hbus hoff, haccess, complete_read, hdata]

theorem lockAfter_read_locked (lock : Option Lock) (r : Requester) (addr : BusAddr) (lanes : Lanes) (off : Offset) :
    lockAfter lock (readTxn r addr lanes true) off = some ⟨r, off⟩ := by
  unfold lockAfter
  rw [requesterOf_readTxn]
  rfl

theorem lockAfter_read_unlocked (lock : Option Lock) (r : Requester) (addr : BusAddr) (lanes : Lanes) (off : Offset) :
    lockAfter lock (readTxn r addr lanes false) off = if lock.map Lock.offset = some off then lock else none := by
  cases lock with
  | none => exact (ite_self _).symm
  | some l => by_cases h : l.offset = off <;> simp [lockAfter, readTxn, h]

end

/-- Settles O54: a read inside and outside the window, with the lock each leaves. -/
theorem readsChangeNothingButTheLock : Obligations.ReadsChangeNothingButTheLock := by
  refine ⟨fun s r off lanes hs => ⟨?_, ?_⟩, fun s r addr lanes hheld hbus hoff => ⟨?_, ?_⟩⟩
  · exact congrArg Host.Outcome.next (arrive_read_window hs r off lanes true (lockAfter_read_locked _ _ _ _ _))
  · exact congrArg Host.Outcome.next (arrive_read_window hs r off lanes false (lockAfter_read_unlocked _ _ _ _ _))
  · exact congrArg Host.Outcome.next (arrive_read_outside hheld hbus hoff r lanes true)
  · exact congrArg Host.Outcome.next (arrive_read_outside hheld hbus hoff r lanes false)

section
variable {s : State}

/-! The fault record and acknowledgement (R184, R186, R187). -/

theorem satInc_four (x : BitVec 4) : satInc x = if x = 15 then 15 else x + 1 := by
  by_cases h : x = 15
  · subst h; rfl
  · rw [if_neg h, satInc, if_neg (by simpa using h)]

/-- An acknowledgement unlatches the causes named, and clears the record when FAULT is among them (R184, R187). -/
theorem acknowledge_eq (s : State) (named : BitVec 8) : s.acknowledge named = { s with
    latched := s.latched &&& ~~~named
    fault := if s.latched.getLsbD 6 = true ∧ named.getLsbD 6 = true then none else s.fault
    overflow := if s.latched.getLsbD 6 = true ∧ named.getLsbD 6 = true then 0 else s.overflow } := by
  have hboth : s.latched &&& named &&& causeFault = causeFault ↔
      s.latched.getLsbD 6 = true ∧ named.getLsbD 6 = true := by
    rw [and_causeFault_eq_iff, BitVec.getElem_and, Bool.and_eq_true]
    rfl
  unfold State.acknowledge
  dsimp only
  by_cases h : s.latched.getLsbD 6 = true ∧ named.getLsbD 6 = true
  · rw [if_pos (hboth.2 h), if_pos h, if_pos h]
  · rw [if_neg (fun hc => h (hboth.1 hc)), if_neg h, if_neg h]

theorem acknowledgement_done (hs : Serving s) {r : Requester} (hr : actsForConsole r = true) (lanes : Lanes)
    (data : Word32) (lock : Bool) : CarriedDone s (s.acknowledge (namedCauses lanes data))
      (s.arrive (s.writeTxn r 0x011 lanes data lock)) (s.writeTxn r 0x011 lanes data lock) 0x011 := by
  have hreach : s.reach 0x011 = ⟨0x011, .attention, none⟩ := reach_of_placeOf s 0x011 (by decide)
  refine arrive_carried hs r 0x011 0x011 lanes data lock _ (by rw [hreach]) ?_ (kept_acknowledge s _).bus_kept
  have heffect : s.acknowledgeEffect (s.writeTxn r 0x011 lanes data lock) ⟨0x011, .attention, none⟩ =
      ⟨s.acknowledge (namedCauses lanes data), .write (s.addr 0x011) fullLanes
        ((s.acknowledge (namedCauses lanes data)).postedValue 0x011), some 0x011⟩ := by
    rw [← addr_congr (kept_acknowledge s (namedCauses lanes data)).straps]
    rfl
  rw [writeEffect_rightful s (by rw [hreach]; exact hr), hreach, ← heffect]
  rfl

theorem postedValue_attention (s : State) : s.postedValue 0x011 = s.latched.setWidth 32 := by
  refine BitVec.eq_of_toNat_eq ((toNat_causesWord s.latched).trans ?_)
  have := s.latched.isLt
  rw [BitVec.toNat_setWidth]
  omega

end

/-- Settles O59: the two cases of `raiseFault`, and `acknowledgement_done` with `acknowledge_eq`. -/
theorem faultRecordAndAcknowledgement : Obligations.FaultRecordAndAcknowledgement := by
  refine ⟨fun s f => ⟨fun hnone => ?_, fun first hfirst => ?_⟩, fun s r lanes data lock hs hr => ?_⟩
  · unfold State.raiseFault
    rw [hnone]
  · unfold State.raiseFault
    rw [hfirst]
    dsimp only
    rw [satInc_four]
  · intro named faultToo
    refine ⟨_, rfl, ?_⟩
    have hdone := acknowledgement_done hs hr lanes data lock
    have hnamed : namedCauses lanes data = named := rfl
    rw [hnamed, acknowledge_eq] at hdone
    refine ⟨hdone, ?_⟩
    have hlatched := congrArg State.latched hdone.1
    rw [postedValue_attention, hlatched]

section
variable {s : State}

/-! Stray writes (R144, R145). -/

theorem strayEffect_posted (s : State) {r : Requester} {off : Offset} (lanes : Lanes) (data : Word32) (lock : Bool)
    {q : State} (hq : q = s.raiseFault ⟨.strayWrite, some r, (s.reach off).offset, mergeLanes lanes data 0⟩)
    (hposted : (s.reach off).offset ∈ postedOffsets) :
    s.strayEffect (s.writeTxn r off lanes data lock) (s.reach off) =
      ⟨q, .write (s.addr (s.reach off).offset) fullLanes (q.postedValue (s.reach off).offset),
        some (s.reach off).offset⟩ := by
  have hplace : (s.reach off).place.isPosted = true := by rwa [mem_postedOffsets, place_reach] at hposted
  have hfault : s.raiseFault ⟨.strayWrite, some (requesterOf (s.writeTxn r off lanes data lock)), (s.reach off).offset,
      recordedValue lanes data⟩ = q := by
    rw [hq, requesterOf_writeTxn]
    rfl
  have haddr : q.addr (s.reach off).offset = s.addr (s.reach off).offset :=
    addr_congr (by rw [hq]; exact (kept_raiseFault s _).straps) _
  unfold State.strayEffect
  dsimp only [State.fullWrite]
  rw [if_pos hplace, show (s.writeTxn r off lanes data lock).lanes = lanes from rfl,
    show (s.writeTxn r off lanes data lock).data = data from rfl, hfault, haddr]

theorem strayEffect_unposted (s : State) {r : Requester} {off : Offset} (lanes : Lanes) (data : Word32) (lock : Bool)
    {q : State} (hq : q = s.raiseFault ⟨.strayWrite, some r, (s.reach off).offset, mergeLanes lanes data 0⟩)
    (hposted : (s.reach off).offset ∉ postedOffsets) :
    s.strayEffect (s.writeTxn r off lanes data lock) (s.reach off) = ⟨q, .nothing, none⟩ := by
  have hplace : ¬ (s.reach off).place.isPosted = true := by rwa [mem_postedOffsets, place_reach] at hposted
  unfold State.strayEffect
  dsimp only
  rw [if_neg hplace, requesterOf_writeTxn, hq]
  rfl

/-- A write that puts nothing on the S-side waits for the issues its own event owed, and for no others (R167). -/
theorem complete_nothing (s : State) (txn : Txn) (before : List Post) (hprefix : before <+: s.owed) :
    (s.owed = before → s.complete txn before .nothing = { s with reply := none }) ∧
      (s.owed ≠ before → s.complete txn before .nothing = { s with held := some ⟨txn, .nothing, s.owed.length⟩ }) := by
  refine ⟨fun h => by simp [State.complete, State.perform, h], fun h => ?_⟩
  have howed : s.owed ≠ [] := by
    intro hnil
    rw [hnil, List.prefix_nil] at hprefix
    exact h (hnil.trans hprefix.symm)
  simp [State.complete, h, howed]

/-- A window write that carries nothing: its event's posts, and no access (R144). -/
theorem finishWrite_nothing (hs : Serving s) (txn : Txn) (lock : Option Lock) {q : State} (hk : BusKept s q) {t : State}
    (ht : t = s.finishWrite txn lock ⟨q, .nothing, none⟩) :
    OwnersAre t q ∧ t.lock = lock ∧ PostsFollow s t none ∧ t.mem = s.mem ∧
      (t.owed = s.owed → t.held = none ∧ t.reply = none) ∧
      (t.owed ≠ s.owed → t.held = some ⟨txn, .nothing, t.owed.length⟩ ∧ t.reply = s.reply) := by
  obtain ⟨p, o, hposting, hfollow⟩ := posting_spec s { q with lock := lock } hk.posts hk.owed
  have hfinish : t = State.complete { q with lock := lock, posts := p, owed := s.owed ++ o } txn s.owed .nothing := by
    rw [ht, State.finishWrite]
    dsimp only
    rw [hposting]
  obtain ⟨hdone, hwaits⟩ := complete_nothing { q with lock := lock, posts := p, owed := s.owed ++ o } txn s.owed
    (List.prefix_append _ _)
  by_cases howed : s.owed ++ o = s.owed
  · rw [hdone howed] at hfinish
    subst hfinish
    exact ⟨rfl, rfl, hfollow _ _ _ _ _, hk.mem, fun _ => ⟨hk.held.trans hs.2.1, rfl⟩, fun h => absurd howed h⟩
  · rw [hwaits howed] at hfinish
    subst hfinish
    exact ⟨rfl, rfl, hfollow _ _ _ _ _, hk.mem, fun h => absurd h howed, fun _ => ⟨rfl, hk.reply⟩⟩

end

/-- Settles O52: the stray effect at a posted word and at any other. -/
theorem strayWritesAreReplacedOrDropped : Obligations.StrayWritesAreReplacedOrDropped := by
  intro s r off lanes data lock hs hw word txn q
  have hk : BusKept s q := (kept_raiseFault s _).bus_kept
  refine ⟨_, rfl, fun hposted => ?_, fun hposted => ?_⟩
  · exact arrive_carried hs r off word lanes data lock q rfl
      ((writeEffect_stray s hw lanes data lock).trans (strayEffect_posted s lanes data lock rfl hposted)) hk
  · refine finishWrite_nothing hs txn (lockAfter s.lock txn word) hk ?_
    rw [arrive_serving hs _ off rfl, takeWindow_write _ _ _ rfl, writeEffect_stray s hw,
      strayEffect_unposted s lanes data lock rfl hposted]

end Sys2Proof.Machine
end

section
/-! PROOFS. The words an event gives the Posting Queue and how they join it (R163 to R171); posts, owed issues and the end
of a wait (R165 to R167). -/

namespace Sys2Proof.Machine

open Sys2Proof.Safety

/-! The words given, in order (R163, R171). -/

theorem postedOffsets_ascending : (postedOffsets.map BitVec.toNat).Pairwise (· < ·) := by
  have hslots : (allSlots.map fun n => (slotOffset n 2).toNat).Pairwise (· < ·) := by
    rw [List.pairwise_map]
    refine (List.pairwise_lt_finRange 128).imp fun {n m} hlt => ?_
    rw [toNat_slotOffset n (by decide), toNat_slotOffset m (by decide)]
    omega
  rw [postedOffsets, List.map_append, List.map_map, List.pairwise_append]
  refine ⟨by decide, hslots, fun a ha b hb => ?_⟩
  have hbelow : ∀ x ∈ List.map BitVec.toNat
      ([0x010, 0x011, 0x014, 0x015, 0x016, 0x0C1, 0x0D1, 0x0E1, 0x0F1] : List Offset), x < 0x400 := by decide
  obtain ⟨n, -, rfl⟩ := List.mem_map.1 hb
  have hslot := toNat_slotOffset n (i := 2) (by decide)
  have := hbelow a ha
  dsimp only [Function.comp]
  omega

theorem changedPosts_ascending (s t : State) :
    ((changedPosts s t).map fun e => e.offset.toNat).Pairwise (· < ·) := by
  have hoffsets : (changedPosts s t).map (fun e => e.offset.toNat) =
      (postedOffsets.filter (givesPost s t)).map BitVec.toNat := by
    rw [← changedPosts_offsets, List.map_map]
    rfl
  rw [hoffsets]
  exact postedOffsets_ascending.sublist (List.filter_sublist.map _)

section
variable {s : State} {given : List Post} {g : Post}

/-! How words join (R164, R167). -/

/-- The words given that have no entry, in the order given (R164). -/
def State.freshPosts (s : State) (given : List Post) : List Post :=
  given.filter fun g => decide (g.offset ∉ s.posts.map Post.offset)

theorem givePosts_eq_join (s : State) (given : List Post) :
    s.givePosts given = (s.freshPosts given).foldl State.joinPosts { s with posts := replaceValues given s.posts } := by
  have hfresh : (fun g : Post => s.posts.all fun e => decide (e.offset ≠ g.offset)) =
      fun g => decide (g.offset ∉ s.posts.map Post.offset) := by
    funext g
    rw [Bool.eq_iff_iff, List.all_eq_true, decide_eq_true_eq, List.mem_map]
    simp only [decide_eq_true_eq]
    exact ⟨fun h ⟨e, he, heq⟩ => h e he heq, fun h e he heq => h ⟨e, he, heq⟩⟩
  unfold State.givePosts
  dsimp only
  rw [hfresh]
  rfl

/-- With room for them all, words join as the youngest in their order and nothing is owed (R164). -/
theorem foldl_joinPosts_of_room (fresh : List Post) (s : State) (hroom : s.posts.length + fresh.length ≤ 16) :
    fresh.foldl State.joinPosts s = { s with posts := s.posts ++ fresh } := by
  induction fresh generalizing s with
  | nil => rw [List.append_nil]; rfl
  | cons e fresh ih =>
    rw [List.length_cons] at hroom
    have hjoin : s.joinPosts e = { s with posts := s.posts ++ [e] } := by
      rw [State.joinPosts, if_pos (by rw [Config.postingDepth]; omega)]
    rw [List.foldl_cons, hjoin, ih _ (by simp only [List.length_append, List.length_singleton]; omega)]
    simp only [List.append_assoc, List.singleton_append]

/-- A full queue gives up its oldest entry that is not of the locked word (R167, R169). -/
theorem joinPosts_of_full {before after : List Post} {oldest : Post} (hposts : s.posts = before ++ oldest :: after)
    (hfull : s.posts.length = 16) (hlocked : ∀ e ∈ before, s.lock.map Lock.offset = some e.offset)
    (holdest : s.lock.map Lock.offset ≠ some oldest.offset) :
    s.joinPosts g = { s with posts := before ++ after ++ [g], owed := s.owed ++ [oldest] } := by
  have htake : takeOldest s.lockedOffset s.posts = some (oldest, before ++ after) := by
    rw [hposts]
    exact takeOldest_of hlocked holdest
  rw [State.joinPosts, if_neg (by rw [Config.postingDepth]; omega), htake]

/-- A word whose entry is not in the queue changes none of its values (R164). -/
theorem replaceValues_append_fresh {queue : List Post} (hg : g.offset ∉ queue.map Post.offset) :
    replaceValues (given ++ [g]) queue = replaceValues given queue := by
  unfold replaceValues
  refine List.map_congr_left fun e he => ?_
  have hne : g.offset ≠ e.offset := fun heq => hg (heq ▸ List.mem_map_of_mem he)
  have hfind : (given ++ [g]).find? (fun x => decide (x.offset = e.offset)) =
      given.find? fun x => decide (x.offset = e.offset) := by
    rw [List.find?_append, List.find?_singleton, decide_eq_false hne]
    exact Option.or_none
  rw [hfind]

/-- A single word with no entry joins (R164). -/
theorem givePosts_singleton (hg : g.offset ∉ s.posts.map Post.offset) : s.givePosts [g] = s.joinPosts g := by
  have hfresh : s.freshPosts [g] = [g] := by
    rw [State.freshPosts, List.filter_singleton, decide_eq_true hg]
    rfl
  have hreplace : replaceValues [g] s.posts = s.posts :=
    (replaceValues_append_fresh (given := []) hg).trans (replaceValues_nil s.posts)
  rw [givePosts_eq_join, hfresh, hreplace]
  rfl

/-- The word given joins after those given before it (R171). -/
theorem givePosts_append (hn : ((given ++ [g]).map Post.offset).Nodup) (hg : g.offset ∉ s.posts.map Post.offset) :
    s.givePosts (given ++ [g]) = (s.givePosts given).givePosts [g] := by
  rw [List.map_append, List.nodup_append] at hn
  obtain ⟨hgiven, -, happart⟩ := hn
  have hapart : g.offset ∉ given.map Post.offset := fun hmem =>
    happart g.offset hmem g.offset (List.mem_map_of_mem (List.mem_singleton_self g)) rfl
  have hqueued : g.offset ∉ (s.givePosts given).posts.map Post.offset := by
    obtain ⟨p, o, heq, -, -, hfrom, -⟩ := givePosts_spec s given hgiven
    rw [heq]
    intro hmem
    obtain ⟨e, he, hoff⟩ := List.mem_map.1 hmem
    rcases hfrom e (List.mem_append_left o he) with hin | ⟨hin, -⟩
    · exact hapart (hoff ▸ List.mem_map_of_mem hin)
    · exact hg (hoff ▸ List.mem_map_of_mem hin)
  have hfresh : s.freshPosts (given ++ [g]) = s.freshPosts given ++ [g] := by
    rw [State.freshPosts, List.filter_append, List.filter_singleton, decide_eq_true hg]
    rfl
  rw [givePosts_singleton hqueued, givePosts_eq_join s (given ++ [g]), givePosts_eq_join s given, hfresh,
    replaceValues_append_fresh hg, List.foldl_append]
  rfl

/-- The values replaced in place, and the entries of other words (R164). -/
theorem getElem?_replaceValues (hn : (given.map Post.offset).Nodup) {queue : List Post} {i : Nat} {e : Post}
    (he : queue[i]? = some e) : (∀ g ∈ given, g.offset = e.offset → (replaceValues given queue)[i]? = some g) ∧
      (e.offset ∉ given.map Post.offset → (replaceValues given queue)[i]? = some e) := by
  unfold replaceValues
  rw [List.getElem?_map, he, Option.map_some]
  refine ⟨fun g hg hoff => ?_, fun hno => ?_⟩
  · rw [← hoff, find?_given hn hg]
  · have hnone : given.find? (fun g => decide (g.offset = e.offset)) = none := by
      rw [List.find?_eq_none]
      intro g hg
      rw [decide_eq_true_eq]
      exact fun hoff => hno (hoff ▸ List.mem_map_of_mem hg)
    rw [hnone]

end

/-- Settles O57: the words given, then how they join with room, at a full queue, and one after another. -/
theorem postingQueueTakesTheWordsGiven : Obligations.PostingQueueTakesTheWordsGiven := by
  refine ⟨fun s t => ⟨changedPosts_ascending s t, fun e => mem_changedPosts, rfl, fun off => rfl⟩,
    fun s given hn => ?_, fun s g before after oldest hposts hfull hg hlocked holdest => ?_,
    fun s given g hn hg => givePosts_append hn hg⟩
  · intro fresh hroom
    refine ⟨replaceValues given s.posts, ?_, replaceValues_map given s.posts, fun i e he => getElem?_replaceValues hn he⟩
    have hlength : (replaceValues given s.posts).length = s.posts.length := List.length_map _
    rw [givePosts_eq_join]
    exact foldl_joinPosts_of_room fresh _ (by rw [hlength]; exact hroom)
  · rw [givePosts_singleton hg]
    exact joinPosts_of_full hposts hfull hlocked holdest

section
variable {s : State} {e : Post} {rest : List Post}

/-! Posts (R165, R166, R169). -/

theorem issuePost_of {before after : List Post} (hseq : s.seq = .run) (howed : s.owed = []) (hheld : s.held = none)
    (hposts : s.posts = before ++ e :: after) (hlocked : ∀ x ∈ before, s.lock.map Lock.offset = some x.offset)
    (he : s.lock.map Lock.offset ≠ some e.offset) :
    s.issuePost = { s with posts := before ++ after }.putWord e.offset e.value := by
  have htake : takeOldest s.lockedOffset s.posts = some (e, before ++ after) := by
    rw [hposts]
    exact takeOldest_of hlocked he
  unfold State.issuePost
  rw [if_pos (by simp [hseq, howed, hheld]), htake]

theorem issuePost_no_turn (h : s.seq ≠ .run ∨ s.owed ≠ [] ∨ s.held ≠ none ∨
    ∀ x ∈ s.posts, s.lock.map Lock.offset = some x.offset) : s.issuePost = s := by
  unfold State.issuePost
  split
  · rename_i hturn
    simp only [Bool.and_eq_true, decide_eq_true_eq, List.isEmpty_iff, Option.isNone_iff_eq_none] at hturn
    obtain ⟨⟨hseq, howed⟩, hheld⟩ := hturn
    rcases h with h | h | h | h
    · exact absurd hseq h
    · exact absurd howed h
    · exact absurd hheld h
    · have hnone : takeOldest s.lockedOffset s.posts = none := takeOldest_none.2 h
      rw [hnone]
  · rfl

/-! Owed issues and the end of a wait (R166, R167). -/

/-- The oldest owed issue written, the rest of them still owed (R166). -/
def State.issued (s : State) (e : Post) (rest : List Post) : State := { s with owed := rest }.putWord e.offset e.value

/-- The held transaction's access once its wait is over, the bus in front of it free (R167, R172). -/
def State.released (s : State) (e : Post) (rest : List Post) (access : Access) : State :=
  { ({ s.issued e rest with held := none }.perform access) with bus := [] }

theorem issueOwed_none (howed : s.owed = []) : s.issueOwed = s := by
  rw [State.issueOwed, howed]

/-- An S-side turn for the oldest owed issue, by the transaction that waits behind it (R166, R167). -/
theorem issueOwed_cons (howed : s.owed = e :: rest) : s.issueOwed = match s.held with
    | none => s.issued e rest
    | some h => if h.ends rest then ({ s.issued e rest with held := none }.perform h.access).resumeBus
      else { s.issued e rest with held := some { h with behind := h.behind - 1 } } := by
  rw [State.issueOwed, howed]
  rfl

theorem issueOwed_free (howed : s.owed = e :: rest) (hheld : s.held = none) : s.issueOwed = s.issued e rest := by
  rw [issueOwed_cons howed, hheld]

theorem issueOwed_waits (howed : s.owed = e :: rest) {h : Held} (hheld : s.held = some h) (hends : h.ends rest = false) :
    s.issueOwed = { s.issued e rest with held := some { h with behind := h.behind - 1 } } := by
  rw [issueOwed_cons howed, hheld]
  dsimp only
  rw [hends, if_neg Bool.false_ne_true]

theorem bus_perform (s : State) (a : Access) : (s.perform a).bus = s.bus := by
  cases a <;> rfl

theorem issueOwed_ends (howed : s.owed = e :: rest) {h : Held} (hheld : s.held = some h) (hends : h.ends rest = true) :
    s.issueOwed = s.bus.foldl State.arrive (s.released e rest h.access) := by
  have hissue : s.issueOwed = ({ s.issued e rest with held := none }.perform h.access).resumeBus := by
    rw [issueOwed_cons howed, hheld]
    dsimp only
    rw [hends, if_pos rfl]
  rw [hissue, State.resumeBus, bus_perform]
  rfl

theorem ends_eq_false {txn : Txn} {access : Access} {behind : Nat} (hrest : rest ≠ [])
    (hwaits : access ≠ .nothing ∨ 1 < behind) : Held.ends ⟨txn, access, behind⟩ rest = false := by
  unfold Held.ends
  rcases hwaits with h | h
  · simp [hrest, h]
  · simp [hrest, h]

theorem ends_of_last (h : Held) : h.ends [] = true := rfl

theorem ends_of_nothing {txn : Txn} {behind : Nat} (h : rest = [] ∨ behind ≤ 1) :
    Held.ends ⟨txn, .nothing, behind⟩ rest = true := by
  unfold Held.ends
  rcases h with h | h
  · rw [h]; rfl
  · simp [h]

/-- The word of the owed issue is in memory, and no other byte has changed (R166). -/
def IssueLanded (s : State) (e : Post) (m : Memory) : Prop :=
  m.readWord (s.addr e.offset) = e.value ∧ ∀ a : Nat, a / 4 ≠ (s.addr e.offset).toNat → m.read a = s.mem.read a

theorem issueLanded (hwf : s.mem.wf = true) : IssueLanded s e (s.issued e rest).mem :=
  ⟨readWord_putWord_same (s := { s with owed := rest }) hwf e.offset e.value,
    fun _ => Memory.read_writeWord_ne s.mem _ fullLanes e.value⟩

/-- A write made behind the last owed issue: what it does not reach is as that issue left it (R146, R166). -/
theorem write_lands_behind (hwf : s.mem.wf = true) (addr : BusAddr) (lanes : Lanes) (data : Word32) {m : Memory}
    (hm : m = (s.issued e []).mem.writeWord addr lanes data) :
    m.readWord addr = mergeLanes lanes data (if addr = s.addr e.offset then e.value else s.mem.readWord addr) ∧
      (addr ≠ s.addr e.offset → m.readWord (s.addr e.offset) = e.value) ∧
      ∀ a : Nat, a / 4 ≠ (s.addr e.offset).toNat → a / 4 ≠ addr.toNat → m.read a = s.mem.read a := by
  obtain ⟨hissued, hother⟩ := issueLanded (rest := []) (e := e) hwf
  have hwf' : (s.issued e []).mem.wf = true := wf_putWord (s := { s with owed := [] }) hwf e.offset e.value
  have hbelow : (s.issued e []).mem.readWord addr =
      if addr = s.addr e.offset then e.value else s.mem.readWord addr := by
    by_cases haddr : addr = s.addr e.offset
    · rw [if_pos haddr, haddr]
      exact hissued
    · rw [if_neg haddr]
      exact Memory.readWord_writeWord_ne s.mem fullLanes e.value haddr
  subst hm
  refine ⟨?_, fun haddr => ?_, fun a hissue hwrite => ?_⟩
  · rw [Memory.readWord_writeWord_same _ _ _ hwf', hbelow]
  · rw [Memory.readWord_writeWord_ne _ _ _ (Ne.symm haddr)]
    exact hissued
  · rw [Memory.read_writeWord_ne _ _ _ _ hwrite]
    exact hother a hissue

/-- A read takes its data as the wait ends (R146, R150). -/
theorem released_read (addr : BusAddr) (off : Option Offset) :
    s.released e rest (.read addr off) = { s.issued e rest with
      held := none, bus := []
      reply := some ((off.bind fun o => s.overlay (placeOf o)).getD ((s.issued e rest).mem.readWord addr)) } := by
  have hdata : State.readData { s.issued e rest with held := none } addr off =
      (off.bind fun o => s.overlay (placeOf o)).getD ((s.issued e rest).mem.readWord addr) := by
    cases off with
    | none => rfl
    | some o =>
      rw [readData_window]
      exact congrArg (fun v : Option Word32 => v.getD ((s.issued e rest).mem.readWord addr))
        (overlay_bus s s.lock s.posts rest s.bus none _ s.reply (placeOf o))
  rw [← hdata]
  rfl

end

/-- Settles O58: the turns of the S-side, and the held transaction by whether its wait ends and by its access. -/
theorem postsAndOwedIssuesReachMemory : Obligations.PostsAndOwedIssuesReachMemory := by
  refine ⟨fun s hwf => ⟨fun before after e hseq howed hheld hposts hlocked he => ?_, fun h => ?_⟩,
    fun s howed => congrArg Host.Outcome.next (issueOwed_none howed), fun s e rest hwf howed => ?_,
    fun c s txn hbus => exec_bus s c hbus⟩
  · exact ⟨_, congrArg Host.Outcome.next (issuePost_of hseq howed hheld hposts hlocked he), rfl,
      issueLanded (rest := s.owed) hwf⟩
  · exact congrArg Host.Outcome.next (issuePost_no_turn h)
  · intro done completes
    have hlanded : IssueLanded s e (s.issued e rest).mem := issueLanded hwf
    refine ⟨fun hheld => ⟨_, congrArg Host.Outcome.next (issueOwed_free howed hheld), rfl, hlanded⟩,
      fun txn access behind hheld => ⟨fun hrest hwaits => ?_, fun haccess hends => ?_, fun addr off haccess hrest => ?_,
        fun addr lanes data hrest => ?_⟩⟩
    · exact ⟨_, congrArg Host.Outcome.next (issueOwed_waits howed hheld (ends_eq_false hrest hwaits)), hlanded, rfl⟩
    · subst haccess
      exact ⟨s.released e rest .nothing, congrArg Host.Outcome.next (issueOwed_ends howed hheld (ends_of_nothing hends)),
        hlanded, rfl⟩
    · subst haccess hrest
      refine ⟨s.released e [] (.read addr off),
        congrArg Host.Outcome.next (issueOwed_ends howed hheld (ends_of_last _)), hlanded, ?_⟩
      rw [released_read]
      rfl
    · subst hrest
      intro lands
      have hlands : ∀ m, m = (s.issued e []).mem.writeWord addr lanes data → lands { s with mem := m } :=
        fun m hm => write_lands_behind hwf addr lanes data hm
      refine ⟨fun haccess => ?_, fun haccess hlanes => ?_⟩
      · subst haccess
        exact ⟨s.released e [] (.write addr lanes data),
          congrArg Host.Outcome.next (issueOwed_ends howed hheld (ends_of_last _)), hlands _ rfl, rfl⟩
      · subst haccess hlanes
        exact ⟨s.released e [] (.restart addr data),
          congrArg Host.Outcome.next (issueOwed_ends howed hheld (ends_of_last _)), hlands _ rfl, rfl⟩

end Sys2Proof.Machine
end
